-- ==== Sys2Proof/Word.lean ====
section
/-! DEFINITION. The words and indexes of the TA-3216: bytes of the bus, ticks of NOW, and the numbers of
slots, output lines and input lines (spec/00 sections 0.6 and 0.9). -/

namespace Sys2Proof

/-- A byte of the host bus or of a record field. -/
abbrev Byte := BitVec 8

/-- A value of NOW, or a number of ticks in the width of NOW (24 bits, wrapping at 16,777,216). -/
abbrev Tick := BitVec 24

/-- A lateness, a WIDTH, a STEP or the two detail bytes of a report record. -/
abbrev Half := BitVec 16

/-- A slot number, 0 to 31. -/
abbrev SlotId := Fin 32

/-- An output line number, 0 to 15. -/
abbrev OutId := Fin 16

/-- An input line number, 0 to 7. -/
abbrev InId := Fin 8

/-- A group number, 0 to 7. -/
abbrev GroupId := Fin 8

end Sys2Proof
end

