-- ==== Sys2Proof/Syntax.lean ====
section
/-! DEFINITION. The commands of the TA-3216: one constructor for each row of spec/opcode_table.json.
A COMMAND row carries no argument, because the command unit reads its argument from CMD_ARG when it takes
the write (R137, R138). -/

namespace Sys2Proof

/-- Which of the two registers of a line register pair is written: lines 0 to 7 or lines 8 to 15 (R89, R92). -/
inductive Bank where
  /-- The register of lines 0 to 7 (18h, 1Ah, 1Ch, 1Eh). -/
  | low
  /-- The register of lines 8 to 15 (19h, 1Bh, 1Dh, 1Fh). -/
  | high
  deriving DecidableEq, Repr

/-- What carries an ADVANCE (R27, R34, R175; log entry 4). -/
inductive AdvanceSource where
  /-- One rising edge of CLKIN: the prescale count counts it, and NOW advances when the count reaches the divisor (R27). -/
  | clkinEdge
  /-- The rising edges of CLKIN up to and including the one at which the prescale count reaches the divisor (R27). -/
  | prescaler
  /-- A part of a slow-oscillator period that does not end it (section 2.1; log entry 5). -/
  | slowPart
  /-- The end of a slow-oscillator period: a coarse step of K ticks falls due in DOZING (R34). -/
  | slowPeriod
  /-- The oldest advance held back by an input delivery is made (R175). -/
  | held
  deriving DecidableEq, Repr

/-- The commands. Each constructor is the row of spec/opcode_table.json that LAWS.json names for it. -/
inductive Instr where
  /-- ALLOC, a write of 01h to COMMAND (R13). -/
  | alloc
  /-- ARM, a write of 02h to COMMAND (R15). -/
  | arm
  /-- LAUNCH, a write of 03h to COMMAND (R67). -/
  | launch
  /-- CANCEL, a write of 04h to COMMAND (R18). -/
  | cancel
  /-- RELEASE, a write of 05h to COMMAND (R14). -/
  | release
  /-- LAUNCH_GROUP, a write of 06h to COMMAND (R143). -/
  | launchGroup
  /-- CANCEL_GROUP, a write of 07h to COMMAND (R143). -/
  | cancelGroup
  /-- START, a write of 08h to COMMAND (R30). -/
  | start
  /-- STOP, a write of 09h to COMMAND (R31). -/
  | stop
  /-- DOZE, a write of 0Ah to COMMAND (R32). -/
  | doze
  /-- WAKE, a write of 0Bh to COMMAND (R35). -/
  | wake
  /-- FLUSH, a write of 0Ch to COMMAND (R127). -/
  | flush
  /-- BAD_COMMAND, a write to COMMAND of a code that is not a command (R138). -/
  | badCommand (code : Byte)
  /-- POP, a write of any value to RPT_POP (R124). -/
  | pop (value : Byte)
  /-- SOFT_RESET, a write to CONTROL with bit 0 set (R168). -/
  | softReset (value : Byte)
  /-- HARDWARE_RESET, RST# driven low or power-on (R170). -/
  | hardwareReset
  /-- RESET_RELEASE, the release of the hardware reset with the levels then at IN7 to IN0 (R170, R114). -/
  | resetRelease (levels : Byte)
  /-- REC_SEL_WRITE (R156). -/
  | recSelWrite (value : Byte)
  /-- DATA_READ (R158). -/
  | dataRead
  /-- DATA_WRITE (R158). -/
  | dataWrite (value : Byte)
  /-- NOW_0_READ (R162). -/
  | now0Read
  /-- IRQ_FLAGS_WRITE (R165). -/
  | irqFlagsWrite (value : Byte)
  /-- IRQ_ENABLE_WRITE (R166). -/
  | irqEnableWrite (value : Byte)
  /-- LINE_REST_WRITE (R89). -/
  | lineRestWrite (bank : Bank) (value : Byte)
  /-- LINE_EN_WRITE (R92). -/
  | lineEnWrite (bank : Bank) (value : Byte)
  /-- LINE_OD_WRITE (R92). -/
  | lineOdWrite (bank : Bank) (value : Byte)
  /-- REGISTER_WRITE, a write to any register that has no row of its own (R154). -/
  | registerWrite (address : BitVec 5) (value : Byte)
  /-- ADVANCE (R24). -/
  | advance (source : AdvanceSource)
  /-- READY_EVENT (R33). -/
  | readyEvent
  /-- RAW_CHANGE, with the level now at the pin of the line (R100). -/
  | rawChange (line : InId) (level : Bool)
  /-- QUALIFICATION_COMPLETE of one line (R103). -/
  | qualificationComplete (line : InId)
  /-- START_EXPIRY of the head of the due list (R50). -/
  | startExpiry
  /-- END_EXPIRY of the head of the due list (R56). -/
  | endExpiry
  /-- INPUT_LAUNCH, the next launch of one line's delivery (R106). -/
  | inputLaunch (line : InId)
  /-- VISIT, the next visit of the group walk (R144). -/
  | visit
  deriving DecidableEq, Repr

end Sys2Proof
end

