-- ==== Sys2Proof/WellFormed.lean ====
section
/-! DEFINITION. Which operands make a command an instance of its row of spec/opcode_table.json. The rows
BAD_COMMAND, SOFT_RESET and REGISTER_WRITE are writes whose operand must not be that of another row. -/

namespace Sys2Proof

/-- The code is one of the twelve commands, 01h to 0Ch (R141, R142, R143). -/
def isCommandCode (code : Byte) : Bool := decide (1 ≤ code.toNat ∧ code.toNat ≤ 12)

/-- The addresses whose writes have a row of their own: IRQ_FLAGS, IRQ_ENABLE, COMMAND, REC_SEL, DATA, RPT_POP
and the line registers LINE_REST, LINE_EN and LINE_OD (the window of spec/09 section 9.2). -/
def hasRowOfItsOwn (address : BitVec 5) : Bool :=
  [0x02, 0x03, 0x04, 0x08, 0x0A, 0x0F, 0x18, 0x19, 0x1C, 0x1D, 0x1E, 0x1F].contains address.toNat

/-- A REGISTER_WRITE is a write to a register without a row; of CONTROL, only the writes with bit 0 clear
(with bit 0 set it is a SOFT_RESET, R168). -/
def isOtherWrite (address : BitVec 5) (value : Byte) : Bool :=
  !hasRowOfItsOwn address && !(address == 0x01#5 && value.getLsbD 0)

/-- The command is an instance of its row. -/
def Instr.wellFormed : Instr → Bool
  | .badCommand code => !isCommandCode code
  | .softReset value => value.getLsbD 0
  | .registerWrite address value => isOtherWrite address value
  | _ => true

end Sys2Proof
end

