-- ==== Sys2Proof/Decode.lean ====
section
/-! DEFINITION. No row of spec/opcode_table.json gives bits, so no word spells a command and decodeTableWord answers none
for every word. What the spec does encode is the bus write: its address and its byte. busWriteOf gives the bus write that a
write row stands for, and rowOfBusWrite the row that a bus write is (spec/09 section 9.2, spec/08 sections 8.1 to 8.3). -/

namespace Sys2Proof

/-- The command that a word of the table spells: none, since the table gives its rows no bits. -/
def decodeTableWord (_nbits _w : Nat) : Option Instr := none

/-- The address of a line register pair's register, from the low one's. -/
def Bank.address (low : BitVec 5) : Bank → BitVec 5
  | .low => low
  | .high => low + 1

/-- The bus write, address and byte, that a write row stands for (section 9.2); none for a read, a pin or an event of the block. -/
def Instr.busWriteOf : Instr → Option (BitVec 5 × Byte)
  | .alloc => some (0x04, 0x01)
  | .arm => some (0x04, 0x02)
  | .launch => some (0x04, 0x03)
  | .cancel => some (0x04, 0x04)
  | .release => some (0x04, 0x05)
  | .launchGroup => some (0x04, 0x06)
  | .cancelGroup => some (0x04, 0x07)
  | .start => some (0x04, 0x08)
  | .stop => some (0x04, 0x09)
  | .doze => some (0x04, 0x0A)
  | .wake => some (0x04, 0x0B)
  | .flush => some (0x04, 0x0C)
  | .badCommand code => some (0x04, code)
  | .pop v => some (0x0F, v)
  | .softReset v => some (0x01, v)
  | .recSelWrite v => some (0x08, v)
  | .dataWrite v => some (0x0A, v)
  | .irqFlagsWrite v => some (0x02, v)
  | .irqEnableWrite v => some (0x03, v)
  | .lineRestWrite b v => some (b.address 0x18, v)
  | .lineEnWrite b v => some (b.address 0x1C, v)
  | .lineOdWrite b v => some (b.address 0x1E, v)
  | .registerWrite a v => some (a, v)
  | .hardwareReset => none
  | .resetRelease _ => none
  | .dataRead => none
  | .now0Read => none
  | .advance _ => none
  | .readyEvent => none
  | .rawChange _ _ => none
  | .qualificationComplete _ => none
  | .startExpiry => none
  | .endExpiry => none
  | .inputLaunch _ => none
  | .visit => none

/-- The row that a write of a code to COMMAND is (R138, R141, R142, R143). -/
def rowOfCommandCode (code : Byte) : Instr :=
  match code.toNat with
  | 0x01 => .alloc
  | 0x02 => .arm
  | 0x03 => .launch
  | 0x04 => .cancel
  | 0x05 => .release
  | 0x06 => .launchGroup
  | 0x07 => .cancelGroup
  | 0x08 => .start
  | 0x09 => .stop
  | 0x0A => .doze
  | 0x0B => .wake
  | 0x0C => .flush
  | _ => .badCommand code

/-- The row that a bus write is (section 9.2). -/
def rowOfBusWrite (address : BitVec 5) (value : Byte) : Instr :=
  match address.toNat with
  | 0x01 => if value.getLsbD 0 then .softReset value else .registerWrite address value
  | 0x02 => .irqFlagsWrite value
  | 0x03 => .irqEnableWrite value
  | 0x04 => rowOfCommandCode value
  | 0x08 => .recSelWrite value
  | 0x0A => .dataWrite value
  | 0x0F => .pop value
  | 0x18 => .lineRestWrite .low value
  | 0x19 => .lineRestWrite .high value
  | 0x1C => .lineEnWrite .low value
  | 0x1D => .lineEnWrite .high value
  | 0x1E => .lineOdWrite .low value
  | 0x1F => .lineOdWrite .high value
  | _ => .registerWrite address value

end Sys2Proof
end

