-- ==== Sys2Proof/Config.lean ====
section
/-! DEFINITION. The fixed quantities of every TA-3216 (spec/00 section 0.9). The spec leaves no value
undefined, so there is no free value here: what it leaves open is the order of events, which the queue of
pending commands carries. -/

namespace Sys2Proof.Config

/-- Report queue: 16 records (R118). -/
def queueDepth : Nat := 16

/-- Claim stack depth: 4 claims per output line (R83). -/
def stackDepth : Nat := 4

/-- The longest DELAY and PERIOD that ARM accepts, in ticks (R16). -/
def longestDelay : Nat := 4194303

/-- The largest coarse step K that DOZE accepts (R32). -/
def largestStep : Nat := 4096

/-- Half of the circle of NOW: a time is reached within this many ticks of it (R25). -/
def halfCircle : Nat := 8388608

/-- Where the lateness saturates (R26). -/
def latenessLimit : Nat := 65535

end Sys2Proof.Config
end

