-- ==== Sys2Proof/Machine/State.lean ====
section
/-! DEFINITION. The state of the TA-3216 as plain data, block by block (spec/00 section 0.3), the queue of
waiting commands, and the state right after a hardware reset. -/

namespace Sys2Proof.Machine

/-- No rule of the spec stops the part: refused commands, rejected writes and dropped records are effects on the
state (R119, R139, R163). So there is no fault and this type has no constructor. -/
inductive Fault where
  deriving DecidableEq, Repr

/-- Why a command has no meaning in the model. -/
inductive Refusal where
  /-- Raised by Dispatch alone for a row without a meaning; safe (no claim can be proved of such a row). No row of
  this model is refused so. -/
  | notModelled (mnemonic : String)
  deriving DecidableEq, Repr

/-! ### Action table (spec/01) -/

/-- KIND, with the stored code 3 that ARM refuses (R2, R3, R16). -/
inductive Kind where | notify | level | pulse | code3
  deriving DecidableEq, Repr

/-- LAUNCH, with the stored code 3 that ARM refuses (R4, R16). -/
inductive LaunchKind where | once | input | chain | code3
  deriving DecidableEq, Repr

/-- POLICY, with the stored code 3 that ARM refuses (R4, R16). -/
inductive Policy where | ignore | restart | queue | code3
  deriving DecidableEq, Repr

/-- VALUE, with the stored code 3 that ARM refuses where the KIND uses VALUE (R3, R16). -/
inductive LevelValue where | low | high | invert | code3
  deriving DecidableEq, Repr

/-- REPORT, with the stored code 3 that ARM refuses (R5, R16). -/
inductive Report where | none | final | every | code3
  deriving DecidableEq, Repr

/-- The programmed fields of a slot; the defaults are those of R9. -/
structure Program where
  kind : Kind := .notify
  launch : LaunchKind := .once
  policy : Policy := .ignore
  wake : Bool := false
  line : OutId := 0
  value : LevelValue := .low
  report : Report := .none
  source : InId := 0
  group : GroupId := 0
  delay : Tick := 0
  width : Half := 0
  period : Tick := 0
  count : Byte := 0
  next : Byte := 0xFF
  deriving DecidableEq, Repr

/-- STATE of a slot (R10). -/
inductive SlotState where | free | held | bound | waiting | driving | retiring
  deriving DecidableEq, Repr

/-- The two final kinds (R117). -/
inductive FinalKind where | done | cancelled
  deriving DecidableEq, Repr

/-- The final record that a RETIRING slot holds (R1). Its subject is the slot itself. -/
structure HeldRecord where
  kind : FinalKind
  time : Tick
  lateness : Half
  count : Byte
  deriving DecidableEq, Repr

/-- A slot: programmed fields, runtime fields and internal values (R1). NEXT DUE is read from the due list (R8). -/
structure Slot where
  prog : Program := {}
  state : SlotState := .free
  pendingMark : Bool := false
  disarmMark : Bool := false
  occurrences : Byte := 0
  launchTime : Tick := 0
  schedStart : Tick := 0
  held : Option HeldRecord := none
  deriving DecidableEq, Repr

/-! ### Time base (spec/02) -/

/-- The time state (R28). -/
inductive TimeState where | stopped | running | enteringDoze | dozing
  deriving DecidableEq, Repr

/-- The slow oscillator (R33). -/
inductive SlowOsc where | off | starting | ready
  deriving DecidableEq, Repr

/-- The time base; the defaults are those of a hardware reset (R40). `examOwed` is the model's own mark (log entry 30): an
examination with its deadline checks, which must end before the next advance, was begun by START (R30) or by a held advance with
more behind it (R175). -/
structure TimeBase where
  now : Tick := 0
  state : TimeState := .stopped
  prescale : Byte := 0
  stepReg : Half := 1
  coarse : Half := 1
  prescaleCount : Byte := 0
  slowOsc : SlowOsc := .off
  readyOutstanding : Bool := false
  slowCount : Nat := 0
  heldAdvances : List Tick := []
  examOwed : Bool := false
  deriving DecidableEq, Repr

/-! ### Scheduler (spec/03) -/

/-- What a due-list entry stands for (R41). -/
inductive Purpose where | start | stop
  deriving DecidableEq, Repr

/-- An entry of the due list (R41); purpose `stop` is the spec's END. -/
structure Entry where
  slot : SlotId
  due : Tick
  purpose : Purpose
  deriving DecidableEq, Repr

/-! ### Output unit (spec/05) -/

/-- A claim: the slot that placed it and its level (R82). -/
structure Claim where
  slot : SlotId
  level : Bool
  deriving DecidableEq, Repr

/-- An output line; the defaults are those of a hardware reset (R82, R96). -/
structure OutLine where
  rest : Bool := false
  claims : List Claim := []
  enable : Bool := false
  openDrain : Bool := false
  deriving DecidableEq, Repr

/-- The state of an OUT pin (R91). A released open-drain pin is high-impedance. -/
inductive PinState where | drivenLow | drivenHigh | highImpedance
  deriving DecidableEq, Repr

/-! ### Input unit (spec/06) -/

/-- The sense of an input line (R98). -/
inductive Sense where | off | rise | fall | both
  deriving DecidableEq, Repr

/-- The delivery of one edge (R105): the slots still to be launched, the new qualified level, the event count, the
launches delivered so far, and whether an INPUT_EDGE record is owed. -/
structure Delivery where
  slots : List SlotId
  level : Bool
  events : Byte
  delivered : Byte
  owed : Bool
  deriving DecidableEq, Repr

/-- An input line (R98). `deadline` is the qualification state: absent is STEADY, present is QUALIFYING. The defaults
are those of a hardware reset, but for the two levels, which the pin gives (R114). -/
structure InLine where
  sense : Sense := .off
  filter : Byte := 0
  reportEnable : Bool := false
  wakeEnable : Bool := false
  raw : Bool := false
  qualified : Bool := false
  deadline : Option Tick := none
  events : Byte := 0
  binding : List SlotId := []
  delivery : Option Delivery := none
  deriving DecidableEq, Repr

/-! ### Report unit (spec/07) -/

/-- The kinds of report record (R116). -/
inductive RecordKind where
  | occur | missed | done | cancelled | claimRefused | launchIgnored | launchLost | inputEdge
  deriving DecidableEq, Repr

/-- A report record (R116). The first byte of the detail is its low byte (R173). -/
structure Record where
  kind : RecordKind
  gap : Bool := false
  subject : Byte
  time : Tick
  detail : Half
  count : Byte
  deriving DecidableEq, Repr

/-- The report unit; the defaults are those of a hardware reset (R118 to R131, R134). -/
structure ReportUnit where
  queue : List Record := []
  retire : List SlotId := []
  gap : Bool := false
  threshold : Byte := 1
  deriving DecidableEq, Repr

/-! ### Command unit (spec/08) -/

/-- The walk command (R136); a hardware reset sets it to 0, which names neither (log entry 18). -/
inductive WalkCommand where | none | launchGroup | cancelGroup
  deriving DecidableEq, Repr

/-- The command unit; the defaults are those of a hardware reset (R136, R150). -/
structure CommandUnit where
  busy : Bool := false
  arg : Byte := 0
  result : Byte := 0
  value : Byte := 0
  walkCommand : WalkCommand := .none
  walkGroup : GroupId := 0
  t0 : Tick := 0
  walkPos : Nat := 0
  walkCount : Nat := 0
  deriving DecidableEq, Repr

/-! ### Host port (spec/09) -/

/-- The five sticky IRQ flags (R164). RPT is not held: it is derived from the report unit. -/
structure StickyFlags where
  ovr : Bool := false
  cmd : Bool := false
  crf : Bool := false
  wrj : Bool := false
  wak : Bool := false
  deriving DecidableEq, Repr

/-- The host port's own state; the defaults are those of a hardware reset (R156 to R166, R171). -/
structure HostPort where
  recSel : BitVec 6 := 0
  fieldSel : Byte := 0
  snapOcc : Byte := 0
  snapDue : Tick := 0
  nowSnap : Half := 0
  flags : StickyFlags := {}
  enables : BitVec 6 := 0
  deriving DecidableEq, Repr

/-! ### The machine -/

/-- The state of the part, the levels at its IN pins, and the queue of commands waiting to be taken. -/
structure State where
  inReset : Bool
  pins : Vector Bool 8
  busData : Byte
  time : TimeBase
  slots : Vector Slot 32
  due : List Entry
  outs : Vector OutLine 16
  ins : Vector InLine 8
  report : ReportUnit
  cmd : CommandUnit
  port : HostPort
  pending : List Instr
  deriving DecidableEq, Repr

/-- Every block at its hardware reset values, each input line's levels taken from its pin (R22, R40, R49, R96, R114,
R134, R150, R171). -/
def State.resetWith (pins : Vector Bool 8) : State where
  inReset := false
  pins := pins
  busData := 0
  time := {}
  slots := Vector.replicate 32 {}
  due := []
  outs := Vector.replicate 16 {}
  ins := Vector.ofFn fun n => { raw := pins[n], qualified := pins[n] }
  report := {}
  cmd := {}
  port := {}
  pending := []

/-- The machine right after reset, with all IN pins low (DESIGN CHOICE, log entry 10) and no command waiting. -/
def State.reset : State := State.resetWith (Vector.replicate 8 false)

end Sys2Proof.Machine
end

