-- ==== Sys2Proof/Machine/Ops.lean ====
section
/-! DEFINITION. The operations that several commands share: the arithmetic of NOW, the due list, the claim stacks, the report
unit, access to slots and lines, launches, the settling of a slot, a finish and its chain, and the wake request. -/

namespace Sys2Proof.Machine

/-! ### Access -/

/-- One slot. -/
def State.slot (s : State) (i : SlotId) : Slot := s.slots[i]

/-- Replace one slot. -/
def State.setSlot (s : State) (i : SlotId) (x : Slot) : State := { s with slots := s.slots.set i x }

/-- One output line. -/
def State.out (s : State) (n : OutId) : OutLine := s.outs[n]

/-- Replace one output line. -/
def State.setOut (s : State) (n : OutId) (x : OutLine) : State := { s with outs := s.outs.set n x }

/-- One input line. -/
def State.inp (s : State) (n : InId) : InLine := s.ins[n]

/-- Replace one input line. -/
def State.setInp (s : State) (n : InId) (x : InLine) : State := { s with ins := s.ins.set n x }

/-- The level at one IN pin. -/
def State.pin (s : State) (n : InId) : Bool := s.pins[n]

/-- Replace the level at one IN pin. -/
def State.setPin (s : State) (n : InId) (level : Bool) : State := { s with pins := s.pins.set n level }

/-- An event that the part takes only while it is not held in hardware reset (R152, R170). -/
def State.whenOn (s : State) (event : State → State) : State := if s.inReset then s else event s

/-! ### NOW (spec/02) -/

/-- The distance from time `a` to time `b` (spec/00 section 0.7). -/
def distance (a b : Tick) : Nat := (b - a).toNat

/-- The reached test (R25). -/
def reached (d now : Tick) : Bool := decide (distance d now < Config.halfCircle)

/-- The lateness of an expiry, saturated (R26). -/
def lateness (due now : Tick) : Half := BitVec.ofNat 16 (min (distance due now) Config.latenessLimit)

/-- The divisor in force (R27). -/
def TimeBase.divisor (t : TimeBase) : Nat := t.prescale.toNat + 1

/-- NOW is carried by CLKIN: RUNNING or ENTERING_DOZE (R28). -/
def TimeBase.onClkin (t : TimeBase) : Bool := t.state == .running || t.state == .enteringDoze

/-- ENTERING_DOZE or DOZING, the states that WAKE and a wake request end (R35, R36). -/
def TimeBase.inDoze (t : TimeBase) : Bool := t.state == .enteringDoze || t.state == .dozing

/-- The return to RUNNING from a doze: the slow oscillator is OFF; from DOZING the slow-period count is discarded and the
prescale count starts from 0, from ENTERING_DOZE the prescale count goes on (R35). -/
def TimeBase.leaveDoze (t : TimeBase) : TimeBase :=
  if t.state == .dozing then { t with state := .running, slowOsc := .off, slowCount := 0, prescaleCount := 0 }
  else { t with state := .running, slowOsc := .off }

/-- A wake request, taken by the time state (R36). -/
def State.wakeRequest (s : State) : State :=
  if s.time.inDoze then { s with time := s.time.leaveDoze, port.flags.wak := true } else s

/-! ### The due list (spec/03) -/

/-- The place of a due time on the line that R43 reads off the circle: reached times lie behind NOW by their distance to
it, the others ahead of NOW by the distance from it. -/
def earliness (now d : Tick) : Int := if reached d now then -(distance d now : Int) else (distance now d : Int)

/-- Insertion: after every entry whose due time is earlier or equal, before every later one (R44). -/
def dueInsert (now : Tick) (e : Entry) : List Entry → List Entry
  | [] => [e]
  | x :: xs => if earliness now x.due ≤ earliness now e.due then x :: dueInsert now e xs else e :: x :: xs

/-- The entry of a slot, if it has one (R41). -/
def dueEntry (i : SlotId) (l : List Entry) : Option Entry := l.find? fun e => e.slot == i

/-- NEXT DUE: the due time of the slot's entry while it is WAITING or DRIVING, 0 otherwise (R8). -/
def State.nextDue (s : State) (i : SlotId) : Tick :=
  match (s.slot i).state with
  | .waiting | .driving => ((dueEntry i s.due).map Entry.due).getD 0
  | .free | .held | .bound | .retiring => 0

/-- Insert an entry for a slot, judged against the present NOW (R44). -/
def State.insertDue (s : State) (i : SlotId) (due : Tick) (p : Purpose) : State :=
  { s with due := dueInsert s.time.now ⟨i, due, p⟩ s.due }

/-- Take a slot's entry out wherever it stands; the others keep their order (R42). -/
def State.removeDue (s : State) (i : SlotId) : State := { s with due := s.due.filter fun e => e.slot != i }

/-- The slot's entry is in the due list and is reached (R73). -/
def State.entryReached (s : State) (i : SlotId) : Bool :=
  s.due.any fun e => e.slot == i && reached e.due s.time.now

/-- The head of the due list, where an examination would hand it over: the time base is not STOPPED and the head is
reached (R46). -/
def State.dueHead (s : State) : Option Entry :=
  if s.time.state == .stopped then none else s.due.head?.filter fun e => reached e.due s.time.now

/-! ### Examinations and deadline checks (spec/03 section 3.3, spec/06 section 6.3) -/

/-- The deadline of a line is checked and reached: the line is QUALIFYING, the time base is not STOPPED (R103, R112; log
entry 26). -/
def State.checkReached (s : State) (n : InId) : Bool :=
  s.time.state != .stopped &&
    match (s.inp n).deadline with
    | some d => reached d s.time.now
    | none => false

/-- An expiry or a deadline check waits to be taken (R46, R103). -/
def State.followUpOwed (s : State) : Bool := s.dueHead.isSome || (List.finRange 8).any s.checkReached

/-- The examination that START or a held advance began, with its checks, is still going on: it ends when nothing is left to be
taken (R48). No advance is made meanwhile (R30, R175; log entry 30). -/
def State.examining (s : State) : Bool := s.time.examOwed && s.followUpOwed

/-- The mark of an examination that has ended is taken away. It is done where a run begins outside an expiry: a reached entry
inserted now begins an examination of its own (R46), between whose expiries advances may be taken (R47). -/
def State.noteExamination (s : State) : State := { s with time.examOwed := s.examining }

/-! ### Claim stacks and lines (spec/05) -/

/-- The logical level: that of the top claim, or the rest level (R83). -/
def OutLine.level (l : OutLine) : Bool :=
  match l.claims with
  | [] => l.rest
  | c :: _ => c.level

/-- The pin by enable, open-drain mode and logical level (R91). -/
def OutLine.pin (l : OutLine) : PinState :=
  match l.enable, l.openDrain, l.level with
  | false, _, _ => .highImpedance
  | true, _, false => .drivenLow
  | true, false, true => .drivenHigh
  | true, true, true => .highImpedance

/-- The state of pin OUTn: high-impedance while the part is held in reset (R96, R170), else as R91 gives. -/
def State.outPin (s : State) (n : OutId) : PinState := if s.inReset then .highImpedance else (s.out n).pin

/-- A push is refused when the stack holds 4 claims (R86). -/
def OutLine.full (l : OutLine) : Bool := decide (Config.stackDepth ≤ l.claims.length)

/-- An accepted push: the claim stands on top (R85). -/
def OutLine.push (l : OutLine) (c : Claim) : OutLine := { l with claims := c :: l.claims }

/-- A removal: the slot's claim leaves the stack wherever it stands (R87). -/
def OutLine.remove (l : OutLine) (i : SlotId) : OutLine := { l with claims := l.claims.filter fun c => c.slot != i }

/-- A rest-level change by a LEVEL slot's VALUE (R88). -/
def OutLine.changeRest (l : OutLine) : LevelValue → OutLine
  | .low => { l with rest := false }
  | .high => { l with rest := true }
  | .invert => { l with rest := !l.rest }
  | .code3 => l

/-- Remove a slot's claim from the stack of its LINE (R87). -/
def State.removeClaim (s : State) (i : SlotId) : State :=
  let n := (s.slot i).prog.line
  s.setOut n ((s.out n).remove i)

/-! ### Report unit (spec/07) -/

/-- The queue has no room (R119, R121). -/
def ReportUnit.full (u : ReportUnit) : Bool := decide (Config.queueDepth ≤ u.queue.length)

/-- Store a record at the tail: it takes the gap mark as its gap bit, and the mark is cleared (R119, R120). -/
def ReportUnit.store (u : ReportUnit) (r : Record) : ReportUnit :=
  { u with queue := u.queue ++ [{ r with gap := u.gap }], gap := false }

/-- A non-final record is stored, or dropped with the gap mark and OVR (R119). -/
def State.giveRecord (s : State) (r : Record) : State :=
  if s.report.full then { s with report.gap := true, port.flags.ovr := true }
  else { s with report := s.report.store r }

/-- A slot number as a byte of a record. -/
def slotByte (i : SlotId) : Byte := BitVec.ofNat 8 i.val

/-- The final record that a slot's held record stands for (R116, R126). -/
def HeldRecord.record (h : HeldRecord) (i : SlotId) : Record where
  kind := match h.kind with
    | .done => .done
    | .cancelled => .cancelled
  subject := slotByte i
  time := h.time
  detail := h.lateness
  count := h.count

/-- The final record of a slot, made now (R18 step 4, R20 step 1). -/
def State.finalRecord (s : State) (i : SlotId) (kind : FinalKind) (late : Half) : HeldRecord where
  kind := kind
  time := s.time.now
  lateness := late
  count := (s.slot i).occurrences

/-- REPORT is not NONE: the slot makes final records, MISSED, CLAIM_REFUSED and LAUNCH_LOST (R5). -/
def Program.reportsFinal (p : Program) : Bool := p.report != .none

/-- REPORT is EVERY: the slot makes OCCUR and LAUNCH_IGNORED too (R5). -/
def Program.reportsEvery (p : Program) : Bool := p.report == .every

/-- Hand over a slot's final record. The answer says whether the slot goes on to settle: no record was required, or it was
stored. Else the slot becomes RETIRING, holds the record and joins the tail of the retire list (R121); its disarm mark is
clear after a finish (R20) and set after a cancel (R18). A record that the same event hands over behind the refused one leaves the
gap mark, which the held record takes when it is stored: the model follows R77 and R123 there, not the general sentence of R125 (log
entry 36). -/
def State.giveFinal (s : State) (i : SlotId) (kind : FinalKind) (late : Half) : State × Bool :=
  if !(s.slot i).prog.reportsFinal then (s, true)
  else if s.report.full then
    ({ s.setSlot i { s.slot i with
          state := .retiring, disarmMark := kind == .cancelled, held := some (s.finalRecord i kind late) } with
        report.retire := s.report.retire ++ [i] }, false)
  else ({ s with report := s.report.store ((s.finalRecord i kind late).record i) }, true)

/-! ### Launches (spec/04) -/

/-- The source kind of a launch (R64). -/
inductive SourceKind where | input | chain | command | group
  deriving DecidableEq, Repr

/-- The code of a source kind in a record's detail (R64). -/
def SourceKind.code : SourceKind → Byte
  | .input => 0
  | .chain => 1
  | .command => 2
  | .group => 3

/-- A launch (R64). -/
structure Launch where
  target : SlotId
  kind : SourceKind
  number : Byte
  time : Tick
  deriving DecidableEq, Repr

/-- What a launch did at its target (section 4.2). -/
inductive LaunchOutcome where | newRun | restart | pending | ignored | lost
  deriving DecidableEq, Repr

/-- The two single bytes of a detail, first byte low (R116, R173). -/
def detailBytes (first second : Byte) : Half := second ++ first

/-- The due time of a run's first START entry: launch time plus DELAY, with the one-tick minimum of a chain launch (R65). -/
def firstDue (delay time : Tick) (chain : Bool) : Tick := time + (if chain && delay == 0 then 1 else delay)

/-- Begin a run: OCCURRENCES 0, the run launch time recorded, the first START entry inserted, the slot WAITING (R70). -/
def State.beginRun (s : State) (i : SlotId) (time : Tick) (chain : Bool) : State :=
  (s.setSlot i { s.slot i with state := .waiting, occurrences := 0, launchTime := time }).insertDue i
    (firstDue (s.slot i).prog.delay time chain) .start

/-- Take a slot's entry out of the due list and, where the slot is DRIVING, its claim out of its line's stack (R18 step 1,
R72 steps 1 and 2). -/
def State.stopRun (s : State) (i : SlotId) : State :=
  if (s.slot i).state == .driving then (s.removeDue i).removeClaim i else s.removeDue i

/-- The LAUNCH_IGNORED record of an ignored launch, made under the target's REPORT EVERY (R75). -/
def State.ignoreLaunch (s : State) (l : Launch) : State :=
  if (s.slot l.target).prog.reportsEvery then
    s.giveRecord
      { kind := .launchIgnored, subject := slotByte l.target, time := s.time.now,
        detail := detailBytes l.kind.code l.number, count := (s.slot l.target).occurrences }
  else s

/-- Set the pending mark (R73, R74). -/
def State.markPending (s : State) (i : SlotId) : State := s.setSlot i { s.slot i with pendingMark := true }

/-- A launch that finds its target running, WAITING or DRIVING, acts by POLICY (R71, R72, R73). -/
def State.launchRunning (s : State) (l : Launch) : State × LaunchOutcome :=
  match (s.slot l.target).prog.policy with
  | .restart => ((s.stopRun l.target).beginRun l.target l.time (l.kind == .chain), .restart)
  | .queue =>
    if (s.slot l.target).pendingMark || (l.kind == .chain && s.entryReached l.target) then (s.ignoreLaunch l, .ignored)
    else (s.markPending l.target, .pending)
  | .ignore | .code3 => (s.ignoreLaunch l, .ignored)

/-- A launch that finds its target RETIRING (R69, R74). A chain launch sets the pending mark here too, as R74 and the RETIRING row of
R78 say: with `retireCompletion` this goes beyond the closing sentences of R78 on a self-chained ONCE slot (log entry 35) and of R79 on
when the run that a chain brings about first occurs (log entry 34). -/
def State.launchRetiring (s : State) (l : Launch) : State × LaunchOutcome :=
  if (s.slot l.target).disarmMark then (s, .lost)
  else match (s.slot l.target).prog.policy with
    | .restart | .queue =>
      if (s.slot l.target).pendingMark then (s.ignoreLaunch l, .ignored) else (s.markPending l.target, .pending)
    | .ignore | .code3 => (s.ignoreLaunch l, .ignored)

/-- The effect of a launch on its target, by the target's state (section 4.2, R69 to R74). -/
def State.launch (s : State) (l : Launch) : State × LaunchOutcome :=
  match (s.slot l.target).state with
  | .free | .held => (s, .lost)
  | .bound => (s.beginRun l.target l.time (l.kind == .chain), .newRun)
  | .waiting | .driving => s.launchRunning l
  | .retiring => s.launchRetiring l

/-- The slot that a NEXT byte names: 0 to 31; FFh names none (R4). ARM refuses the other bytes (R16; log entry 15). -/
def nextSlot (next : Byte) : Option SlotId := if h : next.toNat < 32 then some ⟨next.toNat, h⟩ else none

/-- A chain launch, with the LAUNCH_LOST record of a lost one under the finishing slot's REPORT (R76, R77). -/
def State.chainLaunch (s : State) (source target : SlotId) : State :=
  let (s', outcome) := s.launch ⟨target, .chain, slotByte source, s.time.now⟩
  if outcome == .lost && (s.slot source).prog.reportsFinal then
    s'.giveRecord
      { kind := .launchLost, subject := slotByte target, time := s.time.now,
        detail := detailBytes SourceKind.chain.code (slotByte source), count := 0 }
  else s'

/-! ### Settling and finishing (spec/01 section 1.8) -/

/-- The next state of a slot whose run has ended: the pending run, or HELD for ONCE and BOUND for the others (R20 step 2, R21). -/
def State.settle (s : State) (i : SlotId) : State :=
  if (s.slot i).pendingMark then
    (s.setSlot i { s.slot i with pendingMark := false }).beginRun i s.time.now false
  else s.setSlot i { s.slot i with state := if (s.slot i).prog.launch == .once then .held else .bound }

/-- A finish: the final record, the next state, the chain (R20). The chain launch may restart a DRIVING target, whose claim leaves
its own line within the same expiry: R20, R72 and R76 say so, and the model follows them where R95 says that an expiry changes at
most one line (log entry 32). -/
def State.finish (s : State) (i : SlotId) (late : Half) : State :=
  let (s₁, settles) := s.giveFinal i .done late
  let s₂ := if settles then s₁.settle i else s₁
  match nextSlot (s.slot i).prog.next with
  | some target => s₂.chainLaunch i target
  | none => s₂

/-- A retire completion: the slot gives up its held record and settles by its marks (R21). Its pending run may begin at the NOW of the
finish whose chain launch set the mark, DELAY 0 included: the model follows R21 and R74 there, not the general sentence of R79 (log
entry 34); and it may be the run of a ONCE slot that chained to itself (log entry 35). -/
def State.retireCompletion (s : State) (i : SlotId) : State :=
  if (s.slot i).disarmMark then s.setSlot i { s.slot i with state := .held, disarmMark := false, held := none }
  else
    let s' := if (s.slot i).pendingMark then s.noteExamination else s
    (s'.setSlot i { s.slot i with held := none }).settle i

/-- The record of a RETIRING slot is stored, the slot leaves the retire list and its retire completion is taken (R124, R127). -/
def State.releaseRetiring (s : State) (i : SlotId) : State :=
  let stored := match (s.slot i).held with
    | some h => s.report.store (h.record i)
    | none => s.report
  ({ s with report := { stored with retire := s.report.retire.filter fun j => j != i } }).retireCompletion i

/-- The slot is armed: BOUND, WAITING, DRIVING, or RETIRING without the disarm mark (R10). -/
def Slot.armed (x : Slot) : Bool :=
  match x.state with
  | .bound | .waiting | .driving => true
  | .retiring => !x.disarmMark
  | .free | .held => false

end Sys2Proof.Machine
end

