-- ==== Sys2Proof/Machine/Expiries.lean ====
section
/-! DEFINITION. Expiries and occurrences (spec/03): the meanings of START_EXPIRY and END_EXPIRY. -/

namespace Sys2Proof.Machine

/-- An occurrence record: subject the slot, time NOW, detail the lateness of the expiry, count byte OCCURRENCES after its
increase (R57). -/
def State.occurrenceRecord (s : State) (i : SlotId) (kind : RecordKind) (late : Half) : Record where
  kind := kind
  subject := slotByte i
  time := s.time.now
  detail := late
  count := (s.slot i).occurrences

/-- The grade of REPORT that makes an occurrence record of this kind (R57). -/
def Program.reportsOccurrence (p : Program) : RecordKind → Bool
  | .occur => p.reportsEvery
  | _ => p.reportsFinal

/-- The run goes on after an occurrence: PERIOD is not 0, and COUNT is 0 or not yet come to (R58). -/
def Slot.goesOn (x : Slot) : Bool :=
  x.prog.period != 0 && (x.prog.count == 0 || decide (x.occurrences.toNat < x.prog.count.toNat))

/-- The next start of a periodic run, counted from the scheduled start (R59). -/
def State.nextStart (s : State) (i : SlotId) : State :=
  (s.setSlot i { s.slot i with state := .waiting }).insertDue i ((s.slot i).schedStart + (s.slot i).prog.period) .start

/-- The decision after an occurrence that did not put the slot in DRIVING (R58). -/
def State.decideCourse (s : State) (i : SlotId) (late : Half) : State :=
  if (s.slot i).goesOn then s.nextStart i else s.finish i late

/-- An occurrence is over: it is counted, reported under the slot's REPORT, and the run's course decided
(R51 to R54, R56). -/
def State.endOccurrence (s : State) (i : SlotId) (kind : RecordKind) (late : Half) : State :=
  let s₁ := s.setSlot i { s.slot i with occurrences := (s.slot i).occurrences + 1 }
  let s₂ := if (s₁.slot i).prog.reportsOccurrence kind then s₁.giveRecord (s₁.occurrenceRecord i kind late) else s₁
  s₂.decideCourse i late

/-- A PULSE occurrence: missed, refused, or a claim pushed with the END entry inserted (R53, R54, R55). -/
def State.pulseStart (s : State) (i : SlotId) (late : Half) : State :=
  let p := (s.slot i).prog
  if p.width.toNat ≤ late.toNat then s.endOccurrence i .missed late
  else if (s.out p.line).full then s.endOccurrence i .claimRefused late
  else
    (((s.setOut p.line ((s.out p.line).push ⟨i, p.value == .high⟩)).setSlot i { s.slot i with state := .driving }).insertDue i
      ((s.slot i).schedStart + p.width.setWidth 24) .stop)

/-- The occurrence of a START expiry by KIND (R51, R52, R53). -/
def State.occurrence (s : State) (i : SlotId) (late : Half) : State :=
  let p := (s.slot i).prog
  match p.kind with
  | .notify | .code3 => s.endOccurrence i .occur late
  | .level => (s.setOut p.line ((s.out p.line).changeRest p.value)).endOccurrence i .occur late
  | .pulse => s.pulseStart i late

/-- A START expiry, its entry already taken out of the list (R50). -/
def State.startExpiry (s : State) (i : SlotId) (due : Tick) : State :=
  let s₁ := s.setSlot i { s.slot i with schedStart := due }
  let s₂ := if (s.slot i).prog.wake then s₁.wakeRequest else s₁
  s₂.occurrence i (lateness due s.time.now)

/-- An END expiry, its entry already taken out of the list (R56). -/
def State.endExpiry (s : State) (i : SlotId) (due : Tick) : State :=
  (s.removeClaim i).endOccurrence i .occur (lateness due s.time.now)

/-- The hand-over of the head, if an examination would hand it over and it has this purpose (R46, R47). -/
def State.expire (s : State) (p : Purpose) (event : State → SlotId → Tick → State) : State :=
  match s.dueHead with
  | some e => if e.purpose == p then event { s with due := s.due.tail } e.slot e.due else s
  | none => s

/-- START_EXPIRY (R50). -/
def execStartExpiry (s : State) : Host.Outcome State Fault Refusal :=
  .next (s.whenOn fun s' => s'.expire .start State.startExpiry)

/-- END_EXPIRY (R56). -/
def execEndExpiry (s : State) : Host.Outcome State Fault Refusal :=
  .next (s.whenOn fun s' => s'.expire .stop State.endExpiry)

end Sys2Proof.Machine
end

