-- ==== Sys2Proof/Machine/InputUnit.lean ====
section
/-! DEFINITION. The input unit (spec/06): raw changes, qualification, edges, deliveries and binding lists, and the meanings
of RAW_CHANGE, QUALIFICATION_COMPLETE and INPUT_LAUNCH. -/

namespace Sys2Proof.Machine

/-- A byte that shows one bit. -/
def boolByte (b : Bool) : Byte := if b then 1 else 0

/-- A qualified change to `level` matches the sense (R105). -/
def Sense.isMatch : Sense → Bool → Bool
  | .off, _ => false
  | .rise, level => level
  | .fall, level => !level
  | .both, _ => true

/-- Some line's delivery is in progress (R106). -/
def State.delivering (s : State) : Bool := s.ins.toList.any fun l => l.delivery.isSome

/-- The INPUT_EDGE record of a delivery (R107 step 1). -/
def Delivery.record (d : Delivery) (n : InId) (now : Tick) : Record where
  kind := .inputEdge
  subject := BitVec.ofNat 8 n.val
  time := now
  detail := detailBytes (boolByte d.level) d.delivered
  count := d.events

/-- Steps 1 and 2 of a completion: the owed record, then the delivery is discarded (R107). -/
def State.closeDelivery (s : State) (n : InId) : State :=
  match (s.inp n).delivery with
  | none => s
  | some d =>
    let s' := if d.owed then s.giveRecord (d.record n s.time.now) else s
    s'.setInp n { s'.inp n with delivery := none }

/-- The line has a delivery in which no slot remains (R107). -/
def InLine.deliveryEmpty (l : InLine) : Bool :=
  match l.delivery with
  | some d => d.slots.isEmpty
  | none => false

/-- An edge: the count, the wake request, and the delivery that holds a copy of the binding list (R105 steps 1 to 3). -/
def State.takeEdge (s : State) (n : InId) : State :=
  let l := s.inp n
  let l' := { l with
    events := l.events + 1
    delivery := some ⟨l.binding, l.qualified, l.events + 1, 0, l.reportEnable⟩ }
  (if l.wakeEnable then s.wakeRequest else s).setInp n l'

/-- A qualified change, with the qualified level already changed: an edge if it matches the sense (R105). A delivery
without slots completes within the event. -/
def State.qualifiedChange (s : State) (n : InId) : State :=
  if (s.inp n).sense.isMatch (s.inp n).qualified then
    let s' := s.takeEdge n
    if (s'.inp n).deliveryEmpty then s'.closeDelivery n else s'
  else s

/-- A raw change: the raw level becomes the pin's, and the sense, the qualification state and the filter decide what follows
(R100, R101, R102, R108). -/
def State.takeRawChange (s : State) (n : InId) : State :=
  let level := s.pin n
  let l := s.inp n
  if l.sense == .off then s.setInp n { l with raw := level, qualified := level, deadline := none }
  else if l.deadline.isSome then s.setInp n { l with raw := level, deadline := none }
  else if l.filter == 0 then (s.setInp n { l with raw := level, qualified := level }).qualifiedChange n
  else s.setInp n { l with raw := level, deadline := some (s.time.now + l.filter.setWidth 24) }

/-- A raw change is due: no delivery holds the line and the pin differs from the raw level (R100). -/
def State.rawChangeDue (s : State) (n : InId) : Bool := (s.inp n).delivery.isNone && s.pin n != (s.inp n).raw

/-- The comparison of the pin with the raw level (R100, R107 step 3). -/
def State.comparePin (s : State) (n : InId) : State := if s.rawChangeDue n then s.takeRawChange n else s

/-- A delivery completes when no slot remains in it: record, discard, comparison with the pin (R107). -/
def State.completeIfEmpty (s : State) (n : InId) : State :=
  if (s.inp n).deliveryEmpty then (s.closeDelivery n).comparePin n else s

/-- An INPUT slot joins the tail of the binding list of its SOURCE (R110). -/
def State.joinBinding (s : State) (i : SlotId) : State :=
  let n := (s.slot i).prog.source
  s.setInp n { s.inp n with binding := (s.inp n).binding ++ [i] }

/-- An INPUT slot leaves the binding list of its SOURCE and the line's delivery, which completes if that empties it
(R111, R107; that the cancel then hands over the INPUT_EDGE record beside its own, which R123 does not list, is log entry 12). -/
def State.leaveBinding (s : State) (i : SlotId) : State :=
  let n := (s.slot i).prog.source
  let l := s.inp n
  (s.setInp n { l with
      binding := l.binding.filter fun j => j != i
      delivery := l.delivery.map fun d => { d with slots := d.slots.filter fun j => j != i } }).completeIfEmpty n

/-- The level at a pin is now `level`: a raw change is taken if one is due (R100). In hardware reset none is taken (R114). -/
def State.pinChange (s : State) (n : InId) (level : Bool) : State :=
  (s.setPin n level).whenOn fun s' => s'.comparePin n

/-- The completion of a qualification: the qualified level becomes the raw level and the line STEADY (R103). -/
def State.completeQualification (s : State) (n : InId) : State :=
  if s.checkReached n then
    (((s.setInp n { s.inp n with qualified := (s.inp n).raw, deadline := none }).qualifiedChange n).comparePin n)
  else s

/-- The next launch of a line's delivery, and the completion after the last one (R106, R107). -/
def State.deliverNext (s : State) (n : InId) : State :=
  match (s.inp n).delivery with
  | none => s
  | some d =>
    match d.slots with
    | [] => s.completeIfEmpty n
    | i :: rest =>
      let s' := s.setInp n { s.inp n with delivery := some { d with slots := rest, delivered := d.delivered + 1 } }
      ((s'.noteExamination.launch ⟨i, .input, BitVec.ofNat 8 n.val, s.time.now⟩).1).completeIfEmpty n

/-- RAW_CHANGE (R100). -/
def execRawChange (n : InId) (level : Bool) (s : State) : Host.Outcome State Fault Refusal := .next (s.pinChange n level)

/-- QUALIFICATION_COMPLETE (R103). -/
def execQualificationComplete (n : InId) (s : State) : Host.Outcome State Fault Refusal :=
  .next (s.whenOn fun s' => s'.completeQualification n)

/-- INPUT_LAUNCH (R106). -/
def execInputLaunch (n : InId) (s : State) : Host.Outcome State Fault Refusal :=
  .next (s.whenOn fun s' => s'.deliverNext n)

end Sys2Proof.Machine
end

