-- ==== Sys2Proof/Machine/TimeBase.lean ====
section
/-! DEFINITION. The time base (spec/02, spec/10 section 10.2): the effects of START, STOP, DOZE and WAKE, and the meanings of
ADVANCE and READY_EVENT. -/

namespace Sys2Proof.Machine

/-- The result of a command (R140). -/
inductive ResultCode where
  | ok | noSlot | badArg | badState | badField | lost | ignored | badCommand | pending
  deriving DecidableEq, Repr

/-- The code of a result (R140). -/
def ResultCode.code : ResultCode → Byte
  | .ok => 0x00
  | .noSlot => 0x01
  | .badArg => 0x02
  | .badState => 0x03
  | .badField => 0x04
  | .lost => 0x05
  | .ignored => 0x06
  | .badCommand => 0x07
  | .pending => 0x08

/-- What the owning block answers to an immediate command: the state it leaves, the result and CMD_VALUE (R140). -/
structure Answer where
  state : State
  result : ResultCode
  value : Byte
  deriving DecidableEq, Repr

/-- START (R30). The examination and the checks that it begins are events of their own, and `examOwed` keeps the first advance
behind them. -/
def State.startTime (s : State) : Answer :=
  let started : State := { s with time.state := .running, time.prescaleCount := 0 }
  if s.time.state == .stopped then ⟨{ started with time.examOwed := started.followUpOwed }, .ok, 0⟩
  else ⟨s, .badState, 0⟩

/-- STOP: the counts in progress and the held advances are discarded (R31, R175). -/
def State.stopTime (s : State) : Answer :=
  if s.time.state == .stopped then ⟨s, .badState, 0⟩
  else ⟨{ s with time := { s.time with
      state := .stopped, slowOsc := .off, prescaleCount := 0, slowCount := 0, heldAdvances := [], examOwed := false } }, .ok, 0⟩

/-- STEP is one that DOZE accepts (R32). -/
def TimeBase.stepValid (t : TimeBase) : Bool := decide (1 ≤ t.stepReg.toNat ∧ t.stepReg.toNat ≤ Config.largestStep)

/-- DOZE (R32). -/
def State.dozeTime (s : State) : Answer :=
  if s.time.state == .running then
    if s.time.stepValid then
      ⟨{ s with time := { s.time with
          state := .enteringDoze, coarse := s.time.stepReg, slowOsc := .starting, readyOutstanding := true } }, .ok, 0⟩
    else ⟨s, .badField, 2⟩
  else ⟨s, .badState, 0⟩

/-- WAKE: WAK is not set (R35). -/
def State.wakeTime (s : State) : Answer :=
  if s.time.inDoze then ⟨{ s with time := s.time.leaveDoze }, .ok, 0⟩ else ⟨s, .badState, 0⟩

/-- The ready event of the slow oscillator (R33; log entry 20). -/
def State.takeReady (s : State) : State :=
  if s.time.state == .enteringDoze && s.time.slowOsc == .starting && s.time.readyOutstanding then
    { s with time := { s.time with
        state := .dozing, slowOsc := .ready, prescaleCount := 0, slowCount := 0, readyOutstanding := false } }
  else s

/-- An advance of a given size is made (R24). -/
def State.makeAdvance (s : State) (size : Tick) : State := { s with time.now := s.time.now + size }

/-- A time that is reached would come to half the circle behind NOW by an advance, where the reached test turns back (R25). -/
def turnsBack (now size d : Tick) : Bool := reached d now && decide (Config.halfCircle ≤ distance d now + size.toNat)

/-- An advance would turn the reached test back for an entry that is still in the due list, for a deadline that is still to be
checked, or for the T0 of the walk in progress. R45, R103 and R144 exclude it: each is gone long before (log entry 2). -/
def State.passesHalfCircle (s : State) (size : Tick) : Bool :=
  s.due.any (fun e => turnsBack s.time.now size e.due) ||
    (List.finRange 8).any (fun n => (s.inp n).deadline.any (turnsBack s.time.now size)) ||
    (s.cmd.busy && s.cmd.walkCommand == .launchGroup && turnsBack s.time.now size s.cmd.t0)

/-- An advance of this size may not be made now: a delivery is in progress (R106), the examination that START or a held advance
began is going on (R30, R175), or a reached time would turn back (R45). -/
def State.mustHold (s : State) (size : Tick) : Bool := s.delivering || s.examining || s.passesHalfCircle size

/-- An advance falls due: it is held back if it may not be made now, or while older held advances are not all made (R106, R175;
log entries 2, 6 and 30). -/
def State.advanceDue (s : State) (size : Tick) : State :=
  if s.mustHold size || !s.time.heldAdvances.isEmpty then
    { s with time.heldAdvances := s.time.heldAdvances ++ [size] }
  else { s.makeAdvance size with time.examOwed := false }

/-- A rising edge of CLKIN (R27). -/
def State.clkinEdge (s : State) : State :=
  if s.time.onClkin then
    if s.time.divisor ≤ s.time.prescaleCount.toNat + 1 then ({ s with time.prescaleCount := 0 }).advanceDue 1
    else { s with time.prescaleCount := s.time.prescaleCount + 1 }
  else s

/-- The prescale count comes to its divisor (R27). -/
def State.prescalerFull (s : State) : State :=
  if s.time.onClkin then ({ s with time.prescaleCount := 0 }).advanceDue 1 else s

/-- A part of a slow period (section 2.1; log entry 5). -/
def State.slowPart (s : State) : State :=
  if s.time.state == .dozing then { s with time.slowCount := s.time.slowCount + 1 } else s

/-- The end of a slow period: a coarse step falls due (R34). -/
def State.slowPeriod (s : State) : State :=
  if s.time.state == .dozing then ({ s with time.slowCount := 0 }).advanceDue (s.time.coarse.setWidth 24) else s

/-- The oldest held advance is made, once it may be. While more are held, the examination and the checks that follow it are to end
before the next one (R175; log entry 7). -/
def State.makeHeld (s : State) : State :=
  match s.time.heldAdvances with
  | [] => s
  | size :: rest =>
    if s.mustHold size then s
    else
      let made := ({ s with time.heldAdvances := rest }).makeAdvance size
      { made with time.examOwed := !rest.isEmpty && made.followUpOwed }

/-- ADVANCE by its source (R24, R27, R34, R175). -/
def State.advance (s : State) : AdvanceSource → State
  | .clkinEdge => s.clkinEdge
  | .prescaler => s.prescalerFull
  | .slowPart => s.slowPart
  | .slowPeriod => s.slowPeriod
  | .held => s.makeHeld

/-- ADVANCE (R24). -/
def execAdvance (source : AdvanceSource) (s : State) : Host.Outcome State Fault Refusal :=
  .next (s.whenOn fun s' => s'.advance source)

/-- READY_EVENT (R33). -/
def execReadyEvent (s : State) : Host.Outcome State Fault Refusal := .next (s.whenOn State.takeReady)

end Sys2Proof.Machine
end

