-- ==== Sys2Proof/Machine/ReportCommands.lean ====
section
/-! DEFINITION. The report unit's commands (spec/07 section 7.4): the effect of FLUSH, and POP. -/

namespace Sys2Proof.Machine

/-- POP: the head leaves, and the oldest retiring slot, if there is one, is released (R124). An empty queue changes nothing. -/
def State.popReport (s : State) : State :=
  match s.report.queue with
  | [] => s
  | _ :: rest =>
    let s' := { s with report.queue := rest }
    match s.report.retire with
    | [] => s'
    | i :: _ => s'.releaseRetiring i

/-- Release slots in the order given until the queue holds 16 records (R127 step 3). -/
def State.releaseInOrder (s : State) : List SlotId → State
  | [] => s
  | i :: rest => if s.report.full then s else (s.releaseRetiring i).releaseInOrder rest

/-- The queue emptied and the gap mark cleared (R127 steps 1 and 2). -/
def State.emptyQueue (s : State) : State := { s with report.queue := [], report.gap := false }

/-- FLUSH (R127). The retire completions are taken within the FLUSH, before the command completes: R127, R128 and R142 say so, and
the model follows them where R140 lists a retire completion among the events after the completion (log entry 33). -/
def State.flushReports (s : State) : Answer := ⟨s.emptyQueue.releaseInOrder s.report.retire, .ok, 0⟩

/-- POP, a write of any value to RPT_POP (R124). -/
def execPop (_value : Byte) (s : State) : Host.Outcome State Fault Refusal := .next (s.whenOn State.popReport)

end Sys2Proof.Machine
end

