-- ==== Sys2Proof/Machine/SlotCommands.lean ====
section
/-! DEFINITION. The effects of the slot commands ALLOC, ARM, LAUNCH, CANCEL and RELEASE on the action table (spec/01 sections
1.5 to 1.7, spec/04 section 4.1). -/

namespace Sys2Proof.Machine

/-- The lowest-numbered FREE slot (R13). -/
def State.lowestFree (s : State) : Option SlotId := (List.finRange 32).find? fun i => (s.slot i).state == .free

/-- ALLOC (R13). -/
def State.allocSlot (s : State) : Answer :=
  match s.lowestFree with
  | some i => ⟨s.setSlot i { s.slot i with state := .held }, .ok, slotByte i⟩
  | none => ⟨s, .noSlot, 0xFF⟩

/-- RELEASE (R14). -/
def State.releaseSlot (s : State) (i : SlotId) : Answer :=
  match (s.slot i).state with
  | .held => ⟨s.setSlot i {}, .ok, 0⟩
  | .free => ⟨s, .ok, 0⟩
  | .bound | .waiting | .driving | .retiring => ⟨s, .badState, 0⟩

/-- VALUE is refused for the KIND (R16, check 4). -/
def Program.badValue (p : Program) : Bool :=
  (p.kind == .level && p.value == .code3) || (p.kind == .pulse && (p.value == .invert || p.value == .code3))

/-- ARM's checks in the order of R16's table: the field number of the first that fails. -/
def Program.armCheck (p : Program) : Option Byte :=
  if p.kind == .code3 then some 1
  else if p.launch == .code3 then some 1
  else if p.policy == .code3 then some 1
  else if p.badValue then some 2
  else if p.report == .code3 then some 2
  else if Config.longestDelay < p.delay.toNat then some 4
  else if p.kind == .pulse && p.width == 0 then some 7
  else if Config.longestDelay < p.period.toNat then some 9
  else if p.kind == .pulse && p.period != 0 && decide (p.period.toNat ≤ p.width.toNat) then some 9
  else if p.period == 0 && decide (1 < p.count.toNat) then some 12
  else if decide (32 ≤ p.next.toNat) && p.next != 0xFF then some 13
  else none

/-- A slot whose checks passed enters an armed state by LAUNCH (R17). -/
def State.enterArmed (s : State) (i : SlotId) : State :=
  match (s.slot i).prog.launch with
  | .once => s.noteExamination.beginRun i s.time.now false
  | .input => (s.setSlot i { s.slot i with state := .bound, occurrences := 0 }).joinBinding i
  | .chain | .code3 => s.setSlot i { s.slot i with state := .bound, occurrences := 0 }

/-- ARM (R15, R16, R17). -/
def State.armSlot (s : State) (i : SlotId) : Answer :=
  if (s.slot i).state == .held then
    match (s.slot i).prog.armCheck with
    | some field => ⟨s, .badField, field⟩
    | none => ⟨s.enterArmed i, .ok, 0⟩
  else ⟨s, .badState, 0⟩

/-- The result of a LAUNCH by its outcome (R67). -/
def LaunchOutcome.result : LaunchOutcome → ResultCode
  | .newRun => .ok
  | .restart => .ok
  | .pending => .pending
  | .ignored => .ignored
  | .lost => .lost

/-- LAUNCH: source kind command, source number 0, launch time NOW (R67). -/
def State.launchSlot (s : State) (i : SlotId) : Answer :=
  let (s', outcome) := s.noteExamination.launch ⟨i, .command, 0, s.time.now⟩
  ⟨s', outcome.result, 0⟩

/-- An INPUT slot leaves its binding list; other slots are in none (R18 step 3, R19). -/
def State.unbind (s : State) (i : SlotId) : State :=
  if (s.slot i).prog.launch == .input then s.leaveBinding i else s

/-- A cancel of a slot in BOUND, WAITING or DRIVING (R18). -/
def State.cancelActive (s : State) (i : SlotId) : State :=
  let s₁ := if (s.slot i).state == .bound then s else s.stopRun i
  let s₂ := s₁.setSlot i { s₁.slot i with pendingMark := false }
  let (s₃, settles) := (s₂.unbind i).giveFinal i .cancelled 0
  if settles then s₃.setSlot i { s₃.slot i with state := .held } else s₃

/-- A cancel of a RETIRING slot (R19); a second one finds the slot out of the binding list (R111). -/
def State.cancelRetiring (s : State) (i : SlotId) : State :=
  let s₁ := s.setSlot i { s.slot i with pendingMark := false, disarmMark := true }
  if (s.slot i).disarmMark then s₁ else s₁.unbind i

/-- A cancel by the state of the slot; FREE and HELD take none (R18, R19). -/
def State.cancel (s : State) (i : SlotId) : Option State :=
  match (s.slot i).state with
  | .free | .held => none
  | .bound | .waiting | .driving => some (s.cancelActive i)
  | .retiring => some (s.cancelRetiring i)

/-- CANCEL (R18, R19). -/
def State.cancelSlot (s : State) (i : SlotId) : Answer :=
  match s.cancel i with
  | some s' => ⟨s', .ok, 0⟩
  | none => ⟨s, .badState, 0⟩

end Sys2Proof.Machine
end

