-- ==== Sys2Proof/Machine/CommandUnit.lean ====
section
/-! DEFINITION. The command unit and the group walks (spec/08): the arrival of a COMMAND write, the meanings of the thirteen
COMMAND rows, and VISIT. -/

namespace Sys2Proof.Machine

/-- CMD_ARG as a slot number (R138). -/
def CommandUnit.slotArg (c : CommandUnit) : Option SlotId := if h : c.arg.toNat < 32 then some ⟨c.arg.toNat, h⟩ else none

/-- CMD_ARG as a group number (R138). -/
def CommandUnit.groupArg (c : CommandUnit) : Option GroupId := if h : c.arg.toNat < 8 then some ⟨c.arg.toNat, h⟩ else none

/-- The outcome of a command is written and the CMD flag set (R140). -/
def State.complete (s : State) (result : ResultCode) (value : Byte) : State :=
  { s with cmd.result := result.code, cmd.value := value, port.flags.cmd := true }

/-- The completion that an owning block's answer gives (R140). -/
def Answer.complete (a : Answer) : State := a.state.complete a.result a.value

/-- A slot command: handed over with its slot number, or BAD_ARG (R138, R141). -/
def State.slotCommand (s : State) (effect : State → SlotId → Answer) : State :=
  match s.cmd.slotArg with
  | some i => (effect s i).complete
  | none => s.complete .badArg 0

/-- The taking of a walk command (R143), or BAD_ARG (R138). -/
def State.startWalk (s : State) (w : WalkCommand) : State :=
  match s.cmd.groupArg with
  | some g =>
    { s with cmd := { s.cmd with
        busy := true, walkCommand := w, walkGroup := g, walkPos := 0, walkCount := 0,
        t0 := if w == .launchGroup then s.time.now else s.cmd.t0 } }
  | none => s.complete .badArg 0

/-- The taking of a command by its code (R138, R141, R142, R143). -/
def State.takeCommand (s : State) (code : Byte) : State :=
  match code.toNat with
  | 0x01 => s.allocSlot.complete
  | 0x02 => s.slotCommand State.armSlot
  | 0x03 => s.slotCommand State.launchSlot
  | 0x04 => s.slotCommand State.cancelSlot
  | 0x05 => s.slotCommand State.releaseSlot
  | 0x06 => s.startWalk .launchGroup
  | 0x07 => s.startWalk .cancelGroup
  | 0x08 => s.startTime.complete
  | 0x09 => s.stopTime.complete
  | 0x0A => s.dozeTime.complete
  | 0x0B => s.wakeTime.complete
  | 0x0C => s.flushReports.complete
  | _ => s.complete .badCommand 0

/-- A write to COMMAND: refused with CRF while BUSY, else taken (R138, R139). -/
def State.commandWrite (code : Byte) (s : State) : State :=
  if s.cmd.busy then { s with port.flags.crf := true } else s.takeCommand code

/-! ### Group walks -/

/-- The slot qualifies for the walk: armed and of its group (R144). -/
def State.qualifies (s : State) (i : SlotId) : Bool := (s.slot i).armed && (s.slot i).prog.group == s.cmd.walkGroup

/-- A group's number as a byte of a record (R64). -/
def groupByte (g : GroupId) : Byte := BitVec.ofNat 8 g.val

/-- What a visit does to a slot that qualifies: a group launch with T0 (R145) or a cancel (R146). -/
def State.walkAct (s : State) (i : SlotId) : State :=
  match s.cmd.walkCommand with
  | .launchGroup => (s.noteExamination.launch ⟨i, .group, groupByte s.cmd.walkGroup, s.cmd.t0⟩).1
  | .cancelGroup => (s.cancel i).getD s
  | .none => s

/-- The completion of a walk (R149). -/
def State.completeWalk (s : State) : State :=
  ({ s with cmd.busy := false }).complete .ok (BitVec.ofNat 8 s.cmd.walkCount)

/-- A visit (R144), and the completion after slot 31's (R149). -/
def State.takeVisit (s : State) : State :=
  if h : s.cmd.busy = true ∧ s.cmd.walkPos < 32 then
    let i : SlotId := ⟨s.cmd.walkPos, h.2⟩
    let s₁ : State := if s.qualifies i then { s.walkAct i with cmd.walkCount := s.cmd.walkCount + 1 } else s
    let s₂ : State := { s₁ with cmd.walkPos := s.cmd.walkPos + 1 }
    if s.cmd.walkPos = 31 then s₂.completeWalk else s₂
  else s

/-! ### The meanings of the COMMAND rows and of VISIT -/

/-- ALLOC (R13). -/
def execAlloc (s : State) : Host.Outcome State Fault Refusal := .next (s.whenOn (State.commandWrite 0x01))

/-- ARM (R15). -/
def execArm (s : State) : Host.Outcome State Fault Refusal := .next (s.whenOn (State.commandWrite 0x02))

/-- LAUNCH (R67). -/
def execLaunch (s : State) : Host.Outcome State Fault Refusal := .next (s.whenOn (State.commandWrite 0x03))

/-- CANCEL (R18). -/
def execCancel (s : State) : Host.Outcome State Fault Refusal := .next (s.whenOn (State.commandWrite 0x04))

/-- RELEASE (R14). -/
def execRelease (s : State) : Host.Outcome State Fault Refusal := .next (s.whenOn (State.commandWrite 0x05))

/-- LAUNCH_GROUP (R143). -/
def execLaunchGroup (s : State) : Host.Outcome State Fault Refusal := .next (s.whenOn (State.commandWrite 0x06))

/-- CANCEL_GROUP (R143). -/
def execCancelGroup (s : State) : Host.Outcome State Fault Refusal := .next (s.whenOn (State.commandWrite 0x07))

/-- START (R30). -/
def execStart (s : State) : Host.Outcome State Fault Refusal := .next (s.whenOn (State.commandWrite 0x08))

/-- STOP (R31). -/
def execStop (s : State) : Host.Outcome State Fault Refusal := .next (s.whenOn (State.commandWrite 0x09))

/-- DOZE (R32). -/
def execDoze (s : State) : Host.Outcome State Fault Refusal := .next (s.whenOn (State.commandWrite 0x0A))

/-- WAKE (R35). -/
def execWake (s : State) : Host.Outcome State Fault Refusal := .next (s.whenOn (State.commandWrite 0x0B))

/-- FLUSH (R127). -/
def execFlush (s : State) : Host.Outcome State Fault Refusal := .next (s.whenOn (State.commandWrite 0x0C))

/-- BAD_COMMAND (R138). -/
def execBadCommand (code : Byte) (s : State) : Host.Outcome State Fault Refusal := .next (s.whenOn (State.commandWrite code))

/-- VISIT (R144). -/
def execVisit (s : State) : Host.Outcome State Fault Refusal := .next (s.whenOn State.takeVisit)

end Sys2Proof.Machine
end

