-- ==== Sys2Proof/Machine/Operands.lean ====
section
/-! DEFINITION. The operand forms of the record window and the head registers (spec/09 section 9.8): how each record's items
are packed into bytes, read from them and written to them. -/

namespace Sys2Proof.Machine

/-! ### Codes (R172) -/

/-- The code of KIND. -/
def Kind.code : Kind → BitVec 2
  | .notify => 0 | .level => 1 | .pulse => 2 | .code3 => 3
/-- The KIND of a code. -/
def Kind.ofCode (b : BitVec 2) : Kind :=
  match b.toNat with
  | 0 => .notify | 1 => .level | 2 => .pulse | _ => .code3

/-- The code of LAUNCH. -/
def LaunchKind.code : LaunchKind → BitVec 2
  | .once => 0 | .input => 1 | .chain => 2 | .code3 => 3
/-- The LAUNCH of a code. -/
def LaunchKind.ofCode (b : BitVec 2) : LaunchKind :=
  match b.toNat with
  | 0 => .once | 1 => .input | 2 => .chain | _ => .code3

/-- The code of POLICY. -/
def Policy.code : Policy → BitVec 2
  | .ignore => 0 | .restart => 1 | .queue => 2 | .code3 => 3
/-- The POLICY of a code. -/
def Policy.ofCode (b : BitVec 2) : Policy :=
  match b.toNat with
  | 0 => .ignore | 1 => .restart | 2 => .queue | _ => .code3

/-- The code of VALUE. -/
def LevelValue.code : LevelValue → BitVec 2
  | .low => 0 | .high => 1 | .invert => 2 | .code3 => 3
/-- The VALUE of a code. -/
def LevelValue.ofCode (b : BitVec 2) : LevelValue :=
  match b.toNat with
  | 0 => .low | 1 => .high | 2 => .invert | _ => .code3

/-- The code of REPORT. -/
def Report.code : Report → BitVec 2
  | .none => 0 | .final => 1 | .every => 2 | .code3 => 3
/-- The REPORT of a code. -/
def Report.ofCode (b : BitVec 2) : Report :=
  match b.toNat with
  | 0 => .none | 1 => .final | 2 => .every | _ => .code3

/-- The code of the sense (R98). -/
def Sense.code : Sense → BitVec 2
  | .off => 0 | .rise => 1 | .fall => 2 | .both => 3
/-- The sense of a code. -/
def Sense.ofCode (b : BitVec 2) : Sense :=
  match b.toNat with
  | 0 => .off | 1 => .rise | 2 => .fall | _ => .both

/-- The code of STATE (R10). -/
def SlotState.code : SlotState → BitVec 3
  | .free => 0 | .held => 1 | .bound => 2 | .waiting => 3 | .driving => 4 | .retiring => 5

/-- The code of the time state (R28). -/
def TimeState.code : TimeState → BitVec 2
  | .stopped => 0 | .running => 1 | .enteringDoze => 2 | .dozing => 3

/-- The kind code of a record (R116). -/
def RecordKind.code : RecordKind → BitVec 4
  | .occur => 1 | .missed => 2 | .done => 3 | .cancelled => 4
  | .claimRefused => 5 | .launchIgnored => 6 | .launchLost => 7 | .inputEdge => 8

/-! ### Bytes of a multi-byte quantity, low byte first (spec/00 section 0.6) -/

/-- Byte `k` of a quantity, byte 0 the lowest. -/
def byteAt {w : Nat} (v : BitVec w) (k : Nat) : Byte := v.extractLsb' (8 * k) 8

/-- A 24-bit quantity with one of its bytes replaced. -/
def setByte24 (v : BitVec 24) (k : Nat) (b : Byte) : BitVec 24 :=
  match k with
  | 0 => byteAt v 2 ++ byteAt v 1 ++ b
  | 1 => byteAt v 2 ++ b ++ byteAt v 0
  | _ => b ++ byteAt v 1 ++ byteAt v 0

/-- A 16-bit quantity with one of its bytes replaced. -/
def setByte16 (v : BitVec 16) (k : Nat) (b : Byte) : BitVec 16 :=
  match k with
  | 0 => byteAt v 1 ++ b
  | _ => b ++ byteAt v 0

/-- A field of `w` bits of a byte, from bit `lo`. -/
def bits (b : Byte) (lo w : Nat) : BitVec w := b.extractLsb' lo w

/-! ### Action record (R172) -/

/-- F0: STATE, disarm mark, pending mark. -/
def Slot.f0 (x : Slot) : Byte := BitVec.ofBool x.pendingMark ++ BitVec.ofBool x.disarmMark ++ 0#3 ++ x.state.code

/-- F1: KIND, LAUNCH, POLICY, WAKE. -/
def Program.f1 (p : Program) : Byte := 0#1 ++ BitVec.ofBool p.wake ++ p.policy.code ++ p.launch.code ++ p.kind.code

/-- F2: LINE, VALUE, REPORT. -/
def Program.f2 (p : Program) : Byte := p.report.code ++ p.value.code ++ (BitVec.ofFin p.line : BitVec 4)

/-- F3: SOURCE, GROUP. -/
def Program.f3 (p : Program) : Byte := 0#1 ++ (BitVec.ofFin p.group : BitVec 3) ++ 0#1 ++ (BitVec.ofFin p.source : BitVec 3)

/-- The programmed field F1 to F13 as a byte (R2, R172); 0 for the other numbers. -/
def Program.field (p : Program) (f : Nat) : Byte :=
  match f with
  | 1 => p.f1
  | 2 => p.f2
  | 3 => p.f3
  | 4 => byteAt p.delay 0
  | 5 => byteAt p.delay 1
  | 6 => byteAt p.delay 2
  | 7 => byteAt p.width 0
  | 8 => byteAt p.width 1
  | 9 => byteAt p.period 0
  | 10 => byteAt p.period 1
  | 11 => byteAt p.period 2
  | 12 => p.count
  | 13 => p.next
  | _ => 0

/-- A programmed field written with a byte; none for a field the host may not write (R2, R12, R172). -/
def Program.write (p : Program) (f : Nat) (b : Byte) : Option Program :=
  match f with
  | 1 => some { p with
      kind := .ofCode (bits b 0 2), launch := .ofCode (bits b 2 2), policy := .ofCode (bits b 4 2), wake := b.getLsbD 6 }
  | 2 => some { p with
      line := (bits b 0 4).toFin, value := .ofCode (bits b 4 2), report := .ofCode (bits b 6 2) }
  | 3 => some { p with source := (bits b 0 3).toFin, group := (bits b 4 3).toFin }
  | 4 => some { p with delay := setByte24 p.delay 0 b }
  | 5 => some { p with delay := setByte24 p.delay 1 b }
  | 6 => some { p with delay := setByte24 p.delay 2 b }
  | 7 => some { p with width := setByte16 p.width 0 b }
  | 8 => some { p with width := setByte16 p.width 1 b }
  | 9 => some { p with period := setByte24 p.period 0 b }
  | 10 => some { p with period := setByte24 p.period 1 b }
  | 11 => some { p with period := setByte24 p.period 2 b }
  | 12 => some { p with count := b }
  | 13 => some { p with next := b }
  | _ => none

/-! ### Output line record (R94, R172) -/

/-- F1 to F4: a claim, or FFh where the stack holds none. -/
def claimField : Option Claim → Byte
  | some c => BitVec.ofBool c.level ++ 0#2 ++ (BitVec.ofFin c.slot : BitVec 5)
  | none => 0xFF

/-- A field of the output line record. -/
def OutLine.field (l : OutLine) (f : Nat) : Byte :=
  match f with
  | 0 => 0#1 ++ BitVec.ofNat 3 l.claims.length ++ BitVec.ofBool l.openDrain ++ BitVec.ofBool l.enable ++
      BitVec.ofBool l.rest ++ BitVec.ofBool l.level
  | f + 1 => claimField l.claims[f]?

/-! ### Input line record (R113, R172) -/

/-- F0, CONFIG. -/
def InLine.config (l : InLine) : Byte := 0#4 ++ BitVec.ofBool l.wakeEnable ++ BitVec.ofBool l.reportEnable ++ l.sense.code

/-- F2, IN_STATUS. -/
def InLine.status (l : InLine) : Byte :=
  0#5 ++ BitVec.ofBool l.deadline.isSome ++ BitVec.ofBool l.qualified ++ BitVec.ofBool l.raw

/-- A field of the input line record. -/
def InLine.field (l : InLine) (f : Nat) : Byte :=
  match f with
  | 0 => l.config
  | 1 => l.filter
  | 2 => l.status
  | 3 => l.events
  | 4 => BitVec.ofNat 8 l.binding.length
  | _ => match l.binding with
    | [] => 0xFF
    | i :: _ => slotByte i

/-- A write of CONFIG: sense OFF abandons a qualification in progress (R99, R108). -/
def InLine.writeConfig (l : InLine) (b : Byte) : InLine :=
  let l' := { l with sense := .ofCode (bits b 0 2), reportEnable := b.getLsbD 2, wakeEnable := b.getLsbD 3 }
  if l'.sense == .off && l.deadline.isSome then { l' with qualified := l.raw, deadline := none } else l'

/-- A field of the input line record written with a byte; none for a read-only field (R99, R160). -/
def InLine.write (l : InLine) (f : Nat) (b : Byte) : Option InLine :=
  match f with
  | 0 => some (l.writeConfig b)
  | 1 => some { l with filter := b }
  | _ => none

/-! ### Setup record (R38, R172) -/

/-- A field of the setup record. -/
def State.setupField (s : State) (f : Nat) : Byte :=
  match f with
  | 0 => 0#6 ++ s.time.state.code
  | 1 => s.time.prescale
  | 2 => byteAt s.time.stepReg 0
  | 3 => byteAt s.time.stepReg 1
  | _ => s.report.threshold

/-- STEP is stored in STOPPED and RUNNING only (R38). -/
def TimeBase.stepWritable (t : TimeBase) : Bool := t.state == .stopped || t.state == .running

/-- A field of the setup record written with a byte; none where the time state or the field rejects it (R38). -/
def State.writeSetup (s : State) (f : Nat) (b : Byte) : Option State :=
  match f with
  | 1 => if s.time.state == .stopped then some { s with time.prescale := b } else none
  | 2 => if s.time.stepWritable then some { s with time.stepReg := setByte16 s.time.stepReg 0 b } else none
  | 3 => if s.time.stepWritable then some { s with time.stepReg := setByte16 s.time.stepReg 1 b } else none
  | 4 => some { s with report.threshold := b }
  | _ => none

/-! ### Report record (R173) -/

/-- Byte `k` of a report record, as HEAD_k shows it. -/
def Record.byte (r : Record) (k : Nat) : Byte :=
  match k with
  | 0 => BitVec.ofBool r.gap ++ 0#3 ++ r.kind.code
  | 1 => r.subject
  | 2 => byteAt r.time 0
  | 3 => byteAt r.time 1
  | 4 => byteAt r.time 2
  | 5 => byteAt r.detail 0
  | 6 => byteAt r.detail 1
  | _ => r.count

/-- HEAD_k: byte `k` of the head, or 00h when the queue is empty (R132). -/
def ReportUnit.headByte (u : ReportUnit) (k : Nat) : Byte :=
  match u.queue with
  | [] => 0
  | r :: _ => r.byte k

/-! ### Records of the record window (section 9.3) -/

/-- The record that a record number selects. -/
inductive RecordRef where
  | action (i : SlotId)
  | outLine (n : OutId)
  | inLine (n : InId)
  | setup
  | absent
  deriving DecidableEq, Repr

/-- The record of a number: 0 to 31 slots, 32 to 47 output lines, 48 to 55 input lines, 56 setup, 57 to 63 absent. -/
def recordRef (n : BitVec 6) : RecordRef :=
  if h₁ : n.toNat < 32 then .action ⟨n.toNat, h₁⟩
  else if h₂ : n.toNat < 48 then .outLine ⟨n.toNat - 32, by omega⟩
  else if h₃ : n.toNat < 56 then .inLine ⟨n.toNat - 48, by omega⟩
  else if n.toNat = 56 then .setup
  else .absent

/-- The length of a record, in fields. -/
def RecordRef.length : RecordRef → Nat
  | .action _ => 18
  | .outLine _ => 5
  | .inLine _ => 6
  | .setup => 5
  | .absent => 0

/-- A field of an action record: F14 to F17 from the slot runtime snapshot, the others live (R158, R161). -/
def State.actionField (s : State) (i : SlotId) (f : Nat) : Byte :=
  match f with
  | 0 => (s.slot i).f0
  | 14 => s.port.snapOcc
  | 15 => byteAt s.port.snapDue 0
  | 16 => byteAt s.port.snapDue 1
  | 17 => byteAt s.port.snapDue 2
  | f => (s.slot i).prog.field f

/-- The value of a field of a record (R158). -/
def State.readField (s : State) : RecordRef → Nat → Byte
  | .action i, f => s.actionField i f
  | .outLine n, f => (s.out n).field f
  | .inLine n, f => (s.inp n).field f
  | .setup, f => s.setupField f
  | .absent, _ => 0xFF

/-- A write of a programmed field by the slot's state: stored in FREE, which becomes HELD, and in HELD (R12). The state that the
write finds decides, also after an expiry that finished a ONCE slot into HELD and after the visit of a CANCEL_GROUP walk that
cancelled a slot into HELD: the model follows R12 there, and neither the last sentence of R63, by which the write is rejected in
both orders, nor the field-write row of R148, by which a write after the visit finds the slot armed (log entry 31). -/
def Slot.write (x : Slot) (f : Nat) (b : Byte) : Option Slot :=
  match x.state with
  | .free | .held => (x.prog.write f b).map fun p => { x with prog := p, state := .held }
  | .bound | .waiting | .driving | .retiring => none

/-- A field write handed to the record's owner; none where it is rejected (R160). -/
def State.writeField (s : State) (r : RecordRef) (f : Nat) (b : Byte) : Option State :=
  match r with
  | .action i => ((s.slot i).write f b).map (s.setSlot i)
  | .inLine n => ((s.inp n).write f b).map (s.setInp n)
  | .setup => s.writeSetup f b
  | .outLine _ => none
  | .absent => none

end Sys2Proof.Machine
end

