-- ==== Sys2Proof/Machine/Flags.lean ====
section
/-! DEFINITION. The interrupt flags, IRQ# and STATUS (spec/09 sections 9.2 and 9.6, spec/07 section 7.6): RPT, IRQ_FLAGS, the
clearing of flags, IRQ# and the STATUS byte. -/

namespace Sys2Proof.Machine

/-- The effective threshold: the stored value, 16 above 16 (R131). -/
def ReportUnit.effectiveThreshold (u : ReportUnit) : Nat := min u.threshold.toNat 16

/-- The RPT flag: a level, 1 while the count is at least a nonzero effective threshold (R131). -/
def ReportUnit.rpt (u : ReportUnit) : Bool :=
  u.effectiveThreshold != 0 && decide (u.effectiveThreshold ≤ u.queue.length)

/-- The six IRQ flags, bits 5 to 0: WAK, WRJ, CRF, CMD, OVR, RPT (R164, R173). -/
def State.irqFlags (s : State) : BitVec 6 :=
  BitVec.ofBool s.port.flags.wak ++ BitVec.ofBool s.port.flags.wrj ++ BitVec.ofBool s.port.flags.crf ++
    BitVec.ofBool s.port.flags.cmd ++ BitVec.ofBool s.port.flags.ovr ++ BitVec.ofBool s.report.rpt

/-- IRQ# is asserted: a flag is set together with its enable; released in hardware reset (R167, R170). -/
def State.irqAsserted (s : State) : Bool := !s.inReset && (s.irqFlags &&& s.port.enables) != 0

/-- A write to IRQ_FLAGS clears each sticky flag whose bit is 1 (R165). -/
def StickyFlags.clear (f : StickyFlags) (b : Byte) : StickyFlags where
  ovr := f.ovr && !b.getLsbD 1
  cmd := f.cmd && !b.getLsbD 2
  crf := f.crf && !b.getLsbD 3
  wrj := f.wrj && !b.getLsbD 4
  wak := f.wak && !b.getLsbD 5

/-- STATUS: retire list non-empty, queue non-empty, BUSY, time state (R155, R173). -/
def State.status (s : State) : Byte :=
  0#3 ++ BitVec.ofBool (!s.report.retire.isEmpty) ++ BitVec.ofBool (!s.report.queue.isEmpty) ++
    BitVec.ofBool s.cmd.busy ++ s.time.state.code

/-- A rejected write sets WRJ (R163). -/
def State.reject (s : State) : State := { s with port.flags.wrj := true }

end Sys2Proof.Machine
end

