-- ==== Sys2Proof/Machine/Resets.lean ====
section
/-! DEFINITION. The two resets (spec/00 section 0.10, spec/09 section 9.7): the soft reset and the meanings of HARDWARE_RESET and
RESET_RELEASE. -/

namespace Sys2Proof.Machine

/-- A soft reset of an output line: its claims go, its settings stay (R97). -/
def OutLine.softReset (l : OutLine) : OutLine := { l with claims := [] }

/-- A soft reset of an input line: binding list and delivery go, the rest stays (R115). -/
def InLine.softReset (l : InLine) : InLine := { l with binding := [], delivery := none }

/-- The whole soft reset (R168): every slot FREE (R23), the collections empty (R49, R97, R115, R135), the walk abandoned
(R151), the flags clear and the slot snapshot 0 (R161); the time base, with its held advances, is untouched (R40, R176). -/
def State.softReset (s : State) : State :=
  { s with
    slots := Vector.replicate 32 {}
    due := []
    outs := Vector.ofFn fun n => (s.out n).softReset
    ins := Vector.ofFn fun n => (s.inp n).softReset
    report := { threshold := s.report.threshold }
    cmd := { arg := s.cmd.arg }
    port := { s.port with snapOcc := 0, snapDue := 0, flags := {} } }

/-- A write to CONTROL: a soft reset if bit 0 is set, else nothing (R168). -/
def State.controlWrite (b : Byte) (s : State) : State := if b.getLsbD 0 then s.softReset else s

/-- RST# goes low, or power-on: the part is held in reset and its state is discarded (R150, R170; log entry 13). The
commands that wait outside stay waiting. -/
def State.enterReset (s : State) : State := { State.resetWith s.pins with inReset := true, pending := s.pending }

/-- The levels of the pins as a byte, IN0 in bit 0. -/
def pinLevels (levels : Byte) : Vector Bool 8 :=
  #v[levels.getLsbD 0, levels.getLsbD 1, levels.getLsbD 2, levels.getLsbD 3,
    levels.getLsbD 4, levels.getLsbD 5, levels.getLsbD 6, levels.getLsbD 7]

/-- The release of the reset: every block takes its hardware reset values, the input lines their pins' levels (R170, R114;
log entry 14). -/
def State.releaseReset (s : State) (levels : Byte) : State :=
  { State.resetWith (pinLevels levels) with pending := s.pending }

/-- SOFT_RESET, a write to CONTROL with bit 0 set (R168). -/
def execSoftReset (value : Byte) (s : State) : Host.Outcome State Fault Refusal := .next (s.whenOn (State.controlWrite value))

/-- HARDWARE_RESET (R170). -/
def execHardwareReset (s : State) : Host.Outcome State Fault Refusal := .next s.enterReset

/-- RESET_RELEASE (R170). -/
def execResetRelease (levels : Byte) (s : State) : Host.Outcome State Fault Refusal := .next (s.releaseReset levels)

end Sys2Proof.Machine
end

