-- ==== Sys2Proof/Machine/HostPort.lean ====
section
/-! DEFINITION. The host port (spec/09): the register window, the record window, the snapshots, and the meanings of the rows
that are register accesses. -/

namespace Sys2Proof.Machine

/-! ### The record window -/

/-- The record that REC_SEL selects (R156). -/
def State.selected (s : State) : RecordRef := recordRef s.port.recSel

/-- FIELD_SEL is below the length of the selected record: a DATA access acts on a field (R158, R159). -/
def State.fieldInRange (s : State) : Bool := decide (s.port.fieldSel.toNat < s.selected.length)

/-- FIELD_SEL after a DATA access: one more, 0 at the record's length (R158), 0 when it was out of range (R159). -/
def State.nextFieldSel (s : State) : Byte :=
  if s.port.fieldSel.toNat + 1 < s.selected.length then s.port.fieldSel + 1 else 0

/-- Advance FIELD_SEL (R158, R159). -/
def State.advanceField (s : State) : State := { s with port.fieldSel := s.nextFieldSel }

/-- Take the slot runtime snapshot of a slot (R161). -/
def State.takeSnapshot (s : State) (i : SlotId) : State :=
  { s with port.snapOcc := (s.slot i).occurrences, port.snapDue := s.nextDue i }

/-- The snapshot that a DATA read of F0 of an action record takes (R161). -/
def State.snapshotOnRead (s : State) : State :=
  match s.selected with
  | .action i => if s.port.fieldSel == 0 then s.takeSnapshot i else s
  | .outLine _ | .inLine _ | .setup | .absent => s

/-- The byte that a DATA read returns: the selected field, or FFh out of range (R158, R159). -/
def State.dataByte (s : State) : Byte := if s.fieldInRange then s.readField s.selected s.port.fieldSel.toNat else 0xFF

/-- A read drives the data lines with its byte (R152; log entry 8). -/
def State.drive (s : State) (b : Byte) : State := { s with busData := b }

/-- DATA_READ: the byte, the snapshot on F0 of an action record, the advance of FIELD_SEL (R158, R159, R161). -/
def State.dataRead (s : State) : State := { s.snapshotOnRead with busData := s.dataByte, port.fieldSel := s.nextFieldSel }

/-- DATA_WRITE: the owner stores or rejects the byte; out of range it is rejected; FIELD_SEL advances in every case
(R158, R159, R160). -/
def State.dataWrite (b : Byte) (s : State) : State :=
  let written := if s.fieldInRange then s.writeField s.selected s.port.fieldSel.toNat b else none
  { written.getD s.reject with port.fieldSel := s.nextFieldSel }

/-- A write to REC_SEL: bits 5 to 0 are stored, and a slot record takes the snapshot (R156). -/
def State.recSelWrite (b : Byte) (s : State) : State :=
  let s' := { s with port.recSel := bits b 0 6 }
  match s'.selected with
  | .action i => s'.takeSnapshot i
  | .outLine _ | .inLine _ | .setup | .absent => s'

/-- NOW_0_READ: bits 7 to 0 of NOW, and bits 23 to 8 into the snapshot (R39, R162). -/
def State.now0Read (s : State) : State := { s with busData := byteAt s.time.now 0, port.nowSnap := s.time.now.extractLsb' 8 16 }

/-! ### The line registers -/

/-- The line that bit `k` of a line register belongs to (R173). -/
def lineOf (bank : Bank) (k : Fin 8) : OutId :=
  match bank with
  | .low => ⟨k.val, by omega⟩
  | .high => ⟨8 + k.val, by omega⟩

/-- The register of a line (R173). -/
def bankOf (n : OutId) : Bank := if n.val < 8 then .low else .high

/-- Set an item of the eight lines of one register from the bits of a byte, all in one event (R89, R92). -/
def State.setBank (s : State) (bank : Bank) (b : Byte) (set : OutLine → Bool → OutLine) : State :=
  { s with outs := Vector.ofFn fun n : OutId =>
      if bankOf n = bank then set (s.out n) (b.getLsbD (n.val % 8)) else s.out n }

/-- A byte from one bit of each line of a register (R173). -/
def State.readBank (s : State) (bank : Bank) (item : OutLine → Bool) : Byte :=
  let bit := fun k : Fin 8 => BitVec.ofBool (item (s.out (lineOf bank k)))
  bit 7 ++ bit 6 ++ bit 5 ++ bit 4 ++ bit 3 ++ bit 2 ++ bit 1 ++ bit 0

/-- A write of LINE_REST (R89). -/
def State.lineRestWrite (bank : Bank) (b : Byte) (s : State) : State := s.setBank bank b fun l v => { l with rest := v }

/-- A write of LINE_EN (R92). -/
def State.lineEnWrite (bank : Bank) (b : Byte) (s : State) : State := s.setBank bank b fun l v => { l with enable := v }

/-- A write of LINE_OD (R92). -/
def State.lineOdWrite (bank : Bank) (b : Byte) (s : State) : State := s.setBank bank b fun l v => { l with openDrain := v }

/-! ### The register window -/

/-- A write to IRQ_FLAGS (R165). -/
def State.irqFlagsWrite (b : Byte) (s : State) : State := { s with port.flags := s.port.flags.clear b }

/-- A write to IRQ_ENABLE: bits 5 to 0 are stored (R166). -/
def State.irqEnableWrite (b : Byte) (s : State) : State := { s with port.enables := bits b 0 6 }

/-- A write to a register of the window, by its address (section 9.2, R154). -/
def State.registerWrite (address : BitVec 5) (b : Byte) (s : State) : State :=
  match address.toNat with
  | 0x01 => s.controlWrite b
  | 0x02 => s.irqFlagsWrite b
  | 0x03 => s.irqEnableWrite b
  | 0x04 => s.commandWrite b
  | 0x05 => { s with cmd.arg := b }
  | 0x08 => s.recSelWrite b
  | 0x09 => { s with port.fieldSel := b }
  | 0x0A => s.dataWrite b
  | 0x0F => s.popReport
  | 0x18 => s.lineRestWrite .low b
  | 0x19 => s.lineRestWrite .high b
  | 0x1C => s.lineEnWrite .low b
  | 0x1D => s.lineEnWrite .high b
  | 0x1E => s.lineOdWrite .low b
  | 0x1F => s.lineOdWrite .high b
  | _ => s.reject

/-- The byte that a register shows (section 9.2, R154). -/
def State.registerByte (s : State) (address : BitVec 5) : Byte :=
  match address.toNat with
  | 0x00 => s.status
  | 0x02 => 0#2 ++ s.irqFlags
  | 0x03 => 0#2 ++ s.port.enables
  | 0x05 => s.cmd.arg
  | 0x06 => s.cmd.result
  | 0x07 => s.cmd.value
  | 0x08 => 0#2 ++ s.port.recSel
  | 0x09 => s.port.fieldSel
  | 0x0A => s.dataByte
  | 0x0B => byteAt s.time.now 0
  | 0x0C => byteAt s.port.nowSnap 0
  | 0x0D => byteAt s.port.nowSnap 1
  | 0x0E => BitVec.ofNat 8 s.report.queue.length
  | 0x18 => s.readBank .low OutLine.rest
  | 0x19 => s.readBank .high OutLine.rest
  | 0x1A => s.readBank .low OutLine.level
  | 0x1B => s.readBank .high OutLine.level
  | 0x1C => s.readBank .low OutLine.enable
  | 0x1D => s.readBank .high OutLine.enable
  | 0x1E => s.readBank .low OutLine.openDrain
  | 0x1F => s.readBank .high OutLine.openDrain
  | a => if 0x10 ≤ a ∧ a ≤ 0x17 then s.report.headByte (a - 0x10) else 0

/-- What a read of a register returns: its byte, or no data while the part is held in hardware reset (R170). Only the reads of
DATA and NOW_0 also change the part (R154): they are DATA_READ and NOW_0_READ. -/
def State.readRegister (s : State) (address : BitVec 5) : Option Byte :=
  if s.inReset then none else some (s.registerByte address)

/-! ### The meanings of the register rows -/

/-- REC_SEL_WRITE (R156). -/
def execRecSelWrite (value : Byte) (s : State) : Host.Outcome State Fault Refusal := .next (s.whenOn (State.recSelWrite value))

/-- DATA_READ (R158). -/
def execDataRead (s : State) : Host.Outcome State Fault Refusal := .next (s.whenOn State.dataRead)

/-- DATA_WRITE (R158). -/
def execDataWrite (value : Byte) (s : State) : Host.Outcome State Fault Refusal := .next (s.whenOn (State.dataWrite value))

/-- NOW_0_READ (R162). -/
def execNow0Read (s : State) : Host.Outcome State Fault Refusal := .next (s.whenOn State.now0Read)

/-- IRQ_FLAGS_WRITE (R165). -/
def execIrqFlagsWrite (value : Byte) (s : State) : Host.Outcome State Fault Refusal := .next (s.whenOn (State.irqFlagsWrite value))

/-- IRQ_ENABLE_WRITE (R166). -/
def execIrqEnableWrite (value : Byte) (s : State) : Host.Outcome State Fault Refusal := .next (s.whenOn (State.irqEnableWrite value))

/-- LINE_REST_WRITE (R89). -/
def execLineRestWrite (bank : Bank) (value : Byte) (s : State) : Host.Outcome State Fault Refusal :=
  .next (s.whenOn (State.lineRestWrite bank value))

/-- LINE_EN_WRITE (R92). -/
def execLineEnWrite (bank : Bank) (value : Byte) (s : State) : Host.Outcome State Fault Refusal :=
  .next (s.whenOn (State.lineEnWrite bank value))

/-- LINE_OD_WRITE (R92). -/
def execLineOdWrite (bank : Bank) (value : Byte) (s : State) : Host.Outcome State Fault Refusal :=
  .next (s.whenOn (State.lineOdWrite bank value))

/-- REGISTER_WRITE (R154). -/
def execRegisterWrite (address : BitVec 5) (value : Byte) (s : State) : Host.Outcome State Fault Refusal :=
  .next (s.whenOn (State.registerWrite address value))

end Sys2Proof.Machine
end

