-- ==== Sys2Proof/Machine/Dispatch.lean ====
section
/-! DEFINITION. The meaning of every command: one arm per constructor of Instr, one direct call each. -/

namespace Sys2Proof.Machine

def exec (i : Instr) (s : State) : Host.Outcome State Fault Refusal :=
  match i with
  -- COMMAND rows (spec/08)
  | .alloc => Sys2Proof.Machine.execAlloc s
  | .arm => Sys2Proof.Machine.execArm s
  | .launch => Sys2Proof.Machine.execLaunch s
  | .cancel => Sys2Proof.Machine.execCancel s
  | .release => Sys2Proof.Machine.execRelease s
  | .launchGroup => Sys2Proof.Machine.execLaunchGroup s
  | .cancelGroup => Sys2Proof.Machine.execCancelGroup s
  | .start => Sys2Proof.Machine.execStart s
  | .stop => Sys2Proof.Machine.execStop s
  | .doze => Sys2Proof.Machine.execDoze s
  | .wake => Sys2Proof.Machine.execWake s
  | .flush => Sys2Proof.Machine.execFlush s
  | .badCommand code => Sys2Proof.Machine.execBadCommand code s
  -- report queue and resets (spec/07, spec/09)
  | .pop value => Sys2Proof.Machine.execPop value s
  | .softReset value => Sys2Proof.Machine.execSoftReset value s
  | .hardwareReset => Sys2Proof.Machine.execHardwareReset s
  | .resetRelease levels => Sys2Proof.Machine.execResetRelease levels s
  -- register accesses (spec/05, spec/09)
  | .recSelWrite value => Sys2Proof.Machine.execRecSelWrite value s
  | .dataRead => Sys2Proof.Machine.execDataRead s
  | .dataWrite value => Sys2Proof.Machine.execDataWrite value s
  | .now0Read => Sys2Proof.Machine.execNow0Read s
  | .irqFlagsWrite value => Sys2Proof.Machine.execIrqFlagsWrite value s
  | .irqEnableWrite value => Sys2Proof.Machine.execIrqEnableWrite value s
  | .lineRestWrite bank value => Sys2Proof.Machine.execLineRestWrite bank value s
  | .lineEnWrite bank value => Sys2Proof.Machine.execLineEnWrite bank value s
  | .lineOdWrite bank value => Sys2Proof.Machine.execLineOdWrite bank value s
  | .registerWrite address value => Sys2Proof.Machine.execRegisterWrite address value s
  -- events of the block (spec/02, spec/03, spec/06, spec/08)
  | .advance source => Sys2Proof.Machine.execAdvance source s
  | .readyEvent => Sys2Proof.Machine.execReadyEvent s
  | .rawChange line level => Sys2Proof.Machine.execRawChange line level s
  | .qualificationComplete line => Sys2Proof.Machine.execQualificationComplete line s
  | .startExpiry => Sys2Proof.Machine.execStartExpiry s
  | .endExpiry => Sys2Proof.Machine.execEndExpiry s
  | .inputLaunch line => Sys2Proof.Machine.execInputLaunch line s
  | .visit => Sys2Proof.Machine.execVisit s

end Sys2Proof.Machine
end

