-- ==== Sys2Proof/Safety.lean ====
section
/-! DEFINITION. The terms that claims about the TA-3216 use: the laws that hold between its collections and its slots, and the
results of commands written out from the rules. -/

namespace Sys2Proof.Machine

/-! ### Where commands are taken -/

/-- A COMMAND write is taken: the part is not held in reset and the command unit is IDLE (R138, R170). -/
abbrev TakesCommands (s : State) : Prop := s.inReset = false ∧ s.cmd.busy = false

/-- The outcome of a command, written with the CMD flag set (R140). -/
def withResult (s : State) (result value : Byte) : State :=
  { s with cmd.result := result, cmd.value := value, port.flags.cmd := true }

/-- CMD_ARG holds this slot's number (R137). -/
abbrev ArgIs (s : State) (i : SlotId) : Prop := s.cmd.arg = BitVec.ofNat 8 i.val

/-! ### Rules written out -/

/-- R16's table, row by row: the check fails, and the CMD_VALUE of its row. -/
def armChecks (p : Program) : List (Bool × Byte) :=
  [ (p.kind == .code3, 1), (p.launch == .code3, 1), (p.policy == .code3, 1),
    ((p.kind == .level && p.value == .code3) || (p.kind == .pulse && (p.value == .invert || p.value == .code3)), 2),
    (p.report == .code3, 2), (decide (4194303 < p.delay.toNat), 4), (p.kind == .pulse && p.width == 0, 7),
    (decide (4194303 < p.period.toNat), 9),
    (p.kind == .pulse && p.period != 0 && !decide (p.width.toNat < p.period.toNat), 9),
    (p.period == 0 && !(p.count == 0 || p.count == 1), 12),
    (decide (0x20 ≤ p.next.toNat ∧ p.next.toNat ≤ 0xFE), 13) ]

/-- ARM accepts the fields: no row of R16's table fails. -/
abbrev PassesArm (p : Program) : Prop := ((armChecks p).any fun row => row.1) = false

/-- A run begun at slot `i`: OCCURRENCES 0, the run launch time recorded, a START entry inserted at `due`, the slot WAITING
(R70; the pending mark as given). -/
def runBegun (s : State) (i : SlotId) (time due : Tick) (pending : Bool) : State :=
  { s.setSlot i { s.slot i with state := .waiting, occurrences := 0, launchTime := time, pendingMark := pending } with
    due := dueInsert s.time.now ⟨i, due, .start⟩ s.due }

/-- A run abandoned: the slot's entry is out of the due list, and the claim of a DRIVING slot out of the stack of its LINE
(R18 step 1, R72 steps 1 and 2). -/
def runAbandoned (s : State) (i : SlotId) : State :=
  let n := (s.slot i).prog.line
  let u := { s with due := s.due.filter fun e => e.slot != i }
  if (s.slot i).state = .driving then u.setOut n { s.out n with claims := (s.out n).claims.filter fun c => c.slot != i } else u

/-! ### Records -/

/-- An occurrence record (R57). -/
def occurrenceRecordOf (kind : RecordKind) (i : SlotId) (now : Tick) (late : Half) (occurrences : Byte) : Record where
  kind := kind
  subject := BitVec.ofNat 8 i.val
  time := now
  detail := late
  count := occurrences

/-- The LAUNCH_IGNORED record of a launch: first detail byte the source kind, second the source number (R75). -/
def ignoredRecord (s : State) (l : Launch) : Record where
  kind := .launchIgnored
  subject := BitVec.ofNat 8 l.target.val
  time := s.time.now
  detail := l.number ++ l.kind.code
  count := (s.slot l.target).occurrences

/-- The LAUNCH_LOST record of a chain launch from a finishing slot (R77). -/
def lostRecord (source target : SlotId) (now : Tick) : Record where
  kind := .launchLost
  subject := BitVec.ofNat 8 target.val
  time := now
  detail := (BitVec.ofNat 8 source.val ++ 1#8)
  count := 0

/-- The INPUT_EDGE record of a delivery: first detail byte the level, second the launches delivered (R107). -/
def edgeRecord (n : InId) (now : Tick) (level : Bool) (delivered events : Byte) : Record where
  kind := .inputEdge
  subject := BitVec.ofNat 8 n.val
  time := now
  detail := delivered ++ (if level then 1#8 else 0#8)
  count := events

/-- The record that stores a held final record (R116, R126). -/
def storedFinal (h : HeldRecord) (i : SlotId) : Record where
  kind := if h.kind = .done then .done else .cancelled
  subject := BitVec.ofNat 8 i.val
  time := h.time
  detail := h.lateness
  count := h.count

/-- The report unit with a record stored at the tail: the gap mark becomes its gap bit and is cleared (R119, R120). -/
def storedAtTail (u : ReportUnit) (r : Record) : ReportUnit :=
  { u with queue := u.queue ++ [{ r with gap := u.gap }], gap := false }

/-- A non-final record handed over: stored below 16 records, else dropped with the gap mark and OVR set (R119). -/
def recorded (s : State) (r : Record) : State :=
  if s.report.queue.length < 16 then { s with report := storedAtTail s.report r }
  else { s with report.gap := true, port.flags.ovr := true }

/-- The final record of a slot, made now (R18 step 4, R20 step 1). -/
def finalNow (s : State) (i : SlotId) (kind : FinalKind) (late : Half) : HeldRecord :=
  ⟨kind, s.time.now, late, (s.slot i).occurrences⟩

/-- A slot whose final record the full queue refused: RETIRING with the record, at the tail of the retire list (R121). -/
def retired (s : State) (i : SlotId) (disarm : Bool) (h : HeldRecord) : State :=
  { s.setSlot i { s.slot i with state := .retiring, disarmMark := disarm, held := some h } with
    report.retire := s.report.retire ++ [i] }

/-! ### Examinations and deadline checks -/

/-- Something of an examination or its deadline checks is still to be taken: outside STOPPED the head of the due list is reached, or a
deadline is (R46, R48, R103). -/
def followUpWaits (s : State) : Bool :=
  s.time.state != .stopped &&
    (s.due.head?.any (fun e => reached e.due s.time.now) ||
      (List.finRange 8).any fun n => (s.inp n).deadline.any fun d => reached d s.time.now)

/-- The mark of an examination stands no longer than the examination does (log entry 30). -/
def examNoted (s : State) : State := { s with time := { s.time with examOwed := s.time.examOwed && followUpWaits s } }

/-! ### Launches (section 4.2) -/

/-- The table of section 4.2: the outcome of a launch by the target's state, POLICY and marks; `chainOnReached` says that the
launch is a chain launch and the target's entry is reached (R69 to R74). Code 3 of POLICY, which ARM refuses, stands with
IGNORE (log entry 15). -/
def tableOutcome (x : Slot) (chainOnReached : Bool) : LaunchOutcome :=
  match x.state, x.prog.policy with
  | .free, _ => .lost
  | .held, _ => .lost
  | .bound, _ => .newRun
  | .waiting, .restart => .restart
  | .driving, .restart => .restart
  | .waiting, .queue => if x.pendingMark || chainOnReached then .ignored else .pending
  | .driving, .queue => if x.pendingMark || chainOnReached then .ignored else .pending
  | .waiting, _ => .ignored
  | .driving, _ => .ignored
  | .retiring, .restart => if x.disarmMark then .lost else if x.pendingMark then .ignored else .pending
  | .retiring, .queue => if x.disarmMark then .lost else if x.pendingMark then .ignored else .pending
  | .retiring, _ => if x.disarmMark then .lost else .ignored

/-- The outcome of a launch in a state. -/
def outcomeOf (s : State) (l : Launch) : LaunchOutcome :=
  tableOutcome (s.slot l.target)
    (l.kind == .chain && s.due.any fun e => e.slot == l.target && reached e.due s.time.now)

/-- The due time of the first entry of a run that a launch begins or restarts (R65). -/
def launchDue (p : Program) (l : Launch) : Tick := if l.kind = .chain ∧ p.delay = 0 then l.time + 1 else l.time + p.delay

/-- The state that a launch leaves, by its outcome (R69 to R75). -/
def launched (s : State) (l : Launch) : State :=
  let x := s.slot l.target
  match outcomeOf s l with
  | .newRun => runBegun s l.target l.time (launchDue x.prog l) x.pendingMark
  | .restart => runBegun (runAbandoned s l.target) l.target l.time (launchDue x.prog l) x.pendingMark
  | .pending => s.setSlot l.target { x with pendingMark := true }
  | .ignored => if x.prog.report = .every then recorded s (ignoredRecord s l) else s
  | .lost => s

/-- The result code of a LAUNCH command by its outcome (R67, R140). -/
def launchResult : LaunchOutcome → Byte
  | .newRun => 0x00
  | .restart => 0x00
  | .pending => 0x08
  | .ignored => 0x06
  | .lost => 0x05

/-! ### Settling, finish, cancel -/

/-- A slot that settles without the disarm mark: the pending run with launch time NOW, or HELD for ONCE and BOUND else
(R20 step 2, R21). -/
def settled (s : State) (i : SlotId) : State :=
  let x := s.slot i
  if x.pendingMark then runBegun s i s.time.now (s.time.now + x.prog.delay) false
  else s.setSlot i { x with state := if x.prog.launch = .once then .held else .bound }

/-- Steps 1 and 2 of a finish (R20, R121). -/
def finished (s : State) (i : SlotId) (late : Half) : State :=
  let h := finalNow s i .done late
  if (s.slot i).prog.report = .none then settled s i
  else if s.report.queue.length < 16 then settled { s with report := storedAtTail s.report (storedFinal h i) } i
  else retired s i false h

/-- A chain launch from a finishing slot, with the LAUNCH_LOST record under the finishing slot's REPORT (R76, R77). -/
def chained (s : State) (source target : SlotId) : State :=
  let l : Launch := ⟨target, .chain, BitVec.ofNat 8 source.val, s.time.now⟩
  if outcomeOf s l = .lost ∧ (s.slot source).prog.report ≠ .none then recorded s (lostRecord source target s.time.now)
  else launched s l

/-- The whole finish: the chain launch follows if NEXT names a slot (R20). -/
def finishedAndChained (s : State) (i : SlotId) (late : Half) : State :=
  if h : (s.slot i).prog.next.toNat < 32 then chained (finished s i late) i ⟨(s.slot i).prog.next.toNat, h⟩
  else finished s i late

/-- The REPORT grades that produce an occurrence record (R57). -/
def reportsOccurrence (p : Program) (kind : RecordKind) : Bool :=
  if kind = .occur then p.report = .every else p.report ≠ .none

/-- An occurrence that does not drive is over: counted, recorded, and followed by the next start or the finish (R57, R58, R59). -/
def occurrenceOver (s : State) (i : SlotId) (kind : RecordKind) (late : Half) : State :=
  let x := s.slot i
  let counted := s.setSlot i { x with occurrences := x.occurrences + 1 }
  let u :=
    if reportsOccurrence x.prog kind then recorded counted (occurrenceRecordOf kind i s.time.now late (x.occurrences + 1))
    else counted
  if x.prog.period ≠ 0 ∧ (x.prog.count = 0 ∨ (x.occurrences + 1).toNat < x.prog.count.toNat) then
    { u.setSlot i { u.slot i with state := .waiting } with
      due := dueInsert s.time.now ⟨i, x.schedStart + x.prog.period, .start⟩ s.due }
  else finishedAndChained u i late

/-- Steps 4 and 5 of a cancel: the CANCELLED record, then HELD, or RETIRING with the disarm mark (R18, R121). -/
def cancelledRecord (s : State) (i : SlotId) : State :=
  let h := finalNow s i .cancelled 0
  let heldSlot := { s.slot i with state := SlotState.held }
  if (s.slot i).prog.report = .none then s.setSlot i heldSlot
  else if s.report.queue.length < 16 then { s.setSlot i heldSlot with report := storedAtTail s.report (storedFinal h i) }
  else retired s i true h

/-- A RETIRING slot released: its held record is stored, it leaves the retire list and settles by its marks (R21, R124, R127). A pending
run that begins so notes how far an examination has come (log entry 30). -/
def released (s : State) (i : SlotId) (h : HeldRecord) : State :=
  let x := s.slot i
  let v := if x.pendingMark ∧ x.disarmMark = false then examNoted s else s
  let report := { storedAtTail s.report (storedFinal h i) with retire := s.report.retire.filter fun j => j != i }
  let u := { v.setSlot i { x with held := none } with report := report }
  if x.disarmMark then u.setSlot i { u.slot i with state := .held, disarmMark := false } else settled u i

/-! ### Time base -/

/-- RUNNING from a doze: the slow oscillator OFF, and from DOZING both counts back to 0 (R35). -/
def dozeLeft (t : TimeBase) : TimeBase :=
  match t.state with
  | .dozing => { t with state := .running, slowOsc := .off, slowCount := 0, prescaleCount := 0 }
  | .enteringDoze => { t with state := .running, slowOsc := .off }
  | .running => t
  | .stopped => t

/-- What a wake request does: in ENTERING_DOZE and DOZING the doze ends and WAK is set (R36). -/
def woken (s : State) : State :=
  if s.time.state = .enteringDoze ∨ s.time.state = .dozing then
    { s with time := dozeLeft s.time, port.flags.wak := true } else s


/-! ### Input lines -/

/-- Steps 1 and 2 of a completion: the owed INPUT_EDGE record, then no delivery (R107). -/
def deliveryClosed (s : State) (n : InId) : State :=
  match (s.inp n).delivery with
  | none => s
  | some d =>
    let u := if d.owed then recorded s (edgeRecord n s.time.now d.level d.delivered d.events) else s
    u.setInp n { u.inp n with delivery := none }

/-- An edge to a level already qualified: the event count, the wake request, the delivery, which completes at once on an empty
binding list (R105). -/
def edgeTaken (s : State) (n : InId) : State :=
  let l := s.inp n
  let d : Delivery := ⟨l.binding, l.qualified, l.events + 1, 0, l.reportEnable⟩
  let u := (if l.wakeEnable then woken s else s).setInp n { l with events := l.events + 1, delivery := some d }
  if l.binding = [] then deliveryClosed u n else u

/-- The sense names a change to this level (R105). -/
abbrev matchesSense (sense : Sense) (level : Bool) : Prop :=
  (sense = .rise ∧ level = true) ∨ (sense = .fall ∧ level = false) ∨ sense = .both

/-! ### Group walks -/

/-- The walk items after a visit, and their completion after slot 31's (R144, R149). -/
def walkAfter (c : CommandUnit) (acted : Bool) : CommandUnit :=
  let count := if acted then c.walkCount + 1 else c.walkCount
  if c.walkPos = 31 then
    { c with busy := false, walkPos := 32, walkCount := count, result := 0, value := BitVec.ofNat 8 count }
  else { c with walkPos := c.walkPos + 1, walkCount := count }

/-- A visit's end: the walk items, and the CMD flag at a completion (R144, R149). -/
def visited (s : State) (acted : Bool) : State :=
  { s with cmd := walkAfter s.cmd acted, port.flags.cmd := s.port.flags.cmd || s.cmd.walkPos == 31 }

/-! ### Record window -/

/-- The length of the record of a number (section 9.3). -/
def recordLength (n : Nat) : Nat := if n < 32 then 18 else if n < 48 then 5 else if n < 56 then 6 else if n = 56 then 5 else 0

/-! ### Orders and conditions -/

/-- The order that R43 gives the due list, judged against NOW: earlier or equal times stand first. -/
abbrev Ordered (now : Tick) (l : List Entry) : Prop := l.Pairwise fun a b => earliness now a.due ≤ earliness now b.due

/-- The head of the due list is a reached entry of this purpose, where an examination hands it over (R46, R47). -/
abbrev HeadReached (s : State) (i : SlotId) (due : Tick) (p : Purpose) (rest : List Entry) : Prop :=
  s.inReset = false ∧ s.time.state ≠ .stopped ∧ s.due = ⟨i, due, p⟩ :: rest ∧ reached due s.time.now = true

/-- No delivery of any line is in progress (R106). -/
abbrev NoDelivery (s : State) : Prop := ∀ n : InId, (s.inp n).delivery = none

/-! ### When an advance waits -/

/-- The reached test would turn back on a time that is reached now (R25, R45). -/
abbrev TurnsBack (now size d : Tick) : Prop := distance d now < 8388608 ∧ 8388608 ≤ distance d now + size.toNat

/-- An advance of this size may not be made now: some delivery is in progress (R106), the examination that START or a held advance
began goes on (R30, R175; log entry 30), or the reached test would turn back on an entry of the due list, on a deadline, or on the T0
of a LAUNCH_GROUP walk (R45, R103, R144; log entry 2). -/
abbrev AdvanceWaits (s : State) (size : Tick) : Prop :=
  ¬ NoDelivery s ∨ (s.time.examOwed = true ∧ followUpWaits s = true) ∨
  (∃ e ∈ s.due, TurnsBack s.time.now size e.due) ∨
  (∃ n : InId, ∃ d ∈ (s.inp n).deadline.toList, TurnsBack s.time.now size d) ∨
  (s.cmd.busy = true ∧ s.cmd.walkCommand = .launchGroup ∧ TurnsBack s.time.now size s.cmd.t0)

/-- An advance of a given size falls due: made at once, or held back while it may not be made (R106, R30, R45) or older held advances
are not all made (log entry 6). -/
def advanceTaken (s : State) (size : Tick) : State :=
  if AdvanceWaits s size ∨ s.time.heldAdvances ≠ [] then
    { s with time := { s.time with heldAdvances := s.time.heldAdvances ++ [size] } }
  else { s with time := { s.time with now := s.time.now + size, examOwed := false } }

/-- The oldest held advance is made; while more are held, its examination and its checks come before the next (R175). -/
def heldMade (s : State) (size : Tick) (rest : List Tick) : State :=
  let made := { s with time := { s.time with now := s.time.now + size, heldAdvances := rest } }
  { made with time := { made.time with examOwed := decide (rest ≠ []) && followUpWaits made } }

/-! ### Laws -/

/-- A slot by itself: a FREE slot holds the defaults (R9), the marks stand only where R11 allows, a RESTART slot that runs is
not pending (R72), a held record stands in RETIRING alone (R1), a slot past ARM holds fields that ARM accepts (R12, R16), a
BOUND slot is not ONCE (R70), and OCCURRENCES stays within a nonzero COUNT (R7). -/
abbrev SlotLaw (x : Slot) : Prop :=
  (x.state = .free → x = {}) ∧
  (x.disarmMark = true → x.state = .retiring) ∧
  (x.pendingMark = true → x.state = .waiting ∨ x.state = .driving ∨ (x.state = .retiring ∧ x.disarmMark = false)) ∧
  (x.pendingMark = true → x.prog.policy = .restart → x.state = .retiring) ∧
  (x.held.isSome = true ↔ x.state = .retiring) ∧
  (x.state ≠ .free → x.state ≠ .held → PassesArm x.prog) ∧
  (x.state = .bound → x.prog.launch ≠ .once) ∧
  (x.state ≠ .free → x.state ≠ .held → x.prog.count ≠ 0 → x.occurrences.toNat ≤ x.prog.count.toNat) ∧
  (x.state = .waiting ∨ x.state = .driving → x.prog.count ≠ 0 → x.occurrences.toNat < x.prog.count.toNat)

/-- The due list against the slots (R41): at most one entry a slot, START while WAITING, END while DRIVING. -/
abbrev DueLaw (s : State) : Prop :=
  (s.due.map Entry.slot).Nodup ∧
  (∀ e ∈ s.due, (s.slot e.slot).state = if e.purpose = .start then .waiting else .driving) ∧
  (∀ i : SlotId, (s.slot i).state = .waiting ∨ (s.slot i).state = .driving → i ∈ s.due.map Entry.slot)

/-- The claim stacks against the slots (R83, R84): at most 4 claims, of distinct DRIVING slots whose LINE is the line, each at
the level of its VALUE; every DRIVING slot has its claim. -/
abbrev ClaimLaw (s : State) : Prop :=
  (∀ n : OutId, (s.out n).claims.length ≤ 4 ∧ ((s.out n).claims.map Claim.slot).Nodup ∧
    ∀ c ∈ (s.out n).claims, (s.slot c.slot).state = .driving ∧ (s.slot c.slot).prog.line = n ∧
      c.level = decide ((s.slot c.slot).prog.value = .high)) ∧
  (∀ i : SlotId, (s.slot i).state = .driving → i ∈ (s.out (s.slot i).prog.line).claims.map Claim.slot)

/-- The report queue and the retire list against the slots (R118, R122). -/
abbrev ReportLaw (s : State) : Prop :=
  s.report.queue.length ≤ 16 ∧ (s.report.retire ≠ [] → s.report.queue.length = 16) ∧ s.report.retire.Nodup ∧
  ∀ i : SlotId, i ∈ s.report.retire ↔ (s.slot i).state = .retiring

/-- The binding lists against the slots (R110), and the deliveries against the binding lists (R105, R106, R107). -/
abbrev BindingLaw (s : State) : Prop :=
  ∀ n : InId, (s.inp n).binding.Nodup ∧
    (∀ i : SlotId, i ∈ (s.inp n).binding ↔
      (s.slot i).prog.launch = .input ∧ (s.slot i).prog.source = n ∧ (s.slot i).armed = true) ∧
    (∀ d ∈ (s.inp n).delivery.toList, d.slots ≠ [] ∧ d.slots.Nodup ∧ ∀ i ∈ d.slots, i ∈ (s.inp n).binding)

/-- The laws that the slots and the collections keep together. -/
structure Consistent (s : State) : Prop where
  slots : ∀ i : SlotId, SlotLaw (s.slot i)
  due : DueLaw s
  claims : ClaimLaw s
  reports : ReportLaw s
  bindings : BindingLaw s

/-- The time base by itself: the slow oscillator follows the time state (R28), the counts stand only where they count (R27,
R33), K is a step that DOZE accepts and equals STEP through a doze (R32), and in STOPPED no advance is held back (R175) and no
examination goes on (R48). -/
abbrev TimeLaw (t : TimeBase) : Prop :=
  (t.slowOsc = match t.state with
    | .stopped | .running => SlowOsc.off
    | .enteringDoze => .starting
    | .dozing => .ready) ∧
  (t.state = .enteringDoze → t.readyOutstanding = true) ∧
  t.prescaleCount.toNat ≤ t.prescale.toNat ∧
  (t.state = .stopped ∨ t.state = .dozing → t.prescaleCount = 0) ∧
  (t.state ≠ .dozing → t.slowCount = 0) ∧
  (1 ≤ t.coarse.toNat ∧ t.coarse.toNat ≤ 4096) ∧
  (t.state = .enteringDoze ∨ t.state = .dozing → t.coarse = t.stepReg) ∧
  (t.state = .stopped → t.heldAdvances = [] ∧ t.examOwed = false)

/-- A time that is reached, or lies at most so many ticks ahead of NOW. -/
abbrev Within (bound : Nat) (now d : Tick) : Prop := distance d now < 8388608 ∨ distance now d ≤ bound

/-- How far the times that the blocks keep lie from NOW: every entry of the due list is reached or at most 4,194,303 ticks ahead (R45),
every deadline reached or at most 255 ahead (R103), and the T0 of a LAUNCH_GROUP walk reached (R45); the END entry of a pulse is due at
its scheduled start plus WIDTH (R55); and no held advance is more than the largest K (R175, R32). -/
abbrev HorizonLaw (s : State) : Prop :=
  (∀ e ∈ s.due, Within 4194303 s.time.now e.due ∧
    (e.purpose = .stop → (s.slot e.slot).prog.kind = .pulse ∧
      e.due = (s.slot e.slot).schedStart + (s.slot e.slot).prog.width.setWidth 24)) ∧
  (∀ n : InId, ∀ d ∈ (s.inp n).deadline.toList, Within 255 s.time.now d) ∧
  (s.cmd.busy = true → s.cmd.walkCommand = .launchGroup → distance s.cmd.t0 s.time.now < 8388608) ∧
  (∀ size ∈ s.time.heldAdvances, size.toNat ≤ 4096)

/-- An input line by itself: in STEADY the qualified level is the raw level, in QUALIFYING they differ (R98); a line with
sense OFF is STEADY (R108), and so is a line whose delivery is in progress (R100). -/
abbrev InputLaw (l : InLine) : Prop :=
  (l.deadline = none → l.raw = l.qualified) ∧
  (l.deadline ≠ none → l.raw ≠ l.qualified ∧ l.sense ≠ .off ∧ l.delivery = none)

/-- The walk items: while BUSY a walk of one of the two commands stands at a slot and has acted on no more slots than it has
visited; position and count stay within 32 (R136). -/
abbrev WalkLaw (c : CommandUnit) : Prop :=
  (c.busy = true → c.walkCommand ≠ .none ∧ c.walkPos < 32) ∧ c.walkPos ≤ 32 ∧ c.walkCount ≤ c.walkPos

end Sys2Proof.Machine
end

