-- ==== Sys2Proof/Certificates/Slice0/Obligations.lean ====
section
/-! DEFINITION. The statements for the provers, in the order of the spec's chapters. A statement that fixes the whole next state by an
equation fixes its frame too: what the equation does not change is unchanged. -/

section

open Sys2Proof Sys2Proof.Machine

/-! ### Steps, the bus and the resets -/

/-- The block's step: the command at the front of the queue runs on the state with the queue's rest. That an empty queue idles is the
model's choice (log entry 3). -/
def Obligations.StepTakesFrontCommand : Prop :=
  ∀ s : State, (∀ (c : Instr) (rest : List Instr), s.pending = c :: rest → step s = exec c { s with pending := rest }) ∧
    (s.pending = [] → step s = .next s)

/-- No command faults or is refused: in every state each answers a next state. That none touches the queue of waiting commands is the
model's choice (log entry 29). -/
def Obligations.EveryCommandAnswersNext : Prop :=
  ∀ (c : Instr) (s : State), ∃ t, exec c s = .next t ∧ t.pending = s.pending

/-- Every bus write is exactly one row: the row it is has that address and byte, and its operand is that row's own. And a row that stands
for a bus write acts as the write to that register; for operands outside their row that is the model's choice (log entry 16). -/
def Obligations.BusWritesAreRows : Prop :=
  (∀ (address : BitVec 5) (value : Byte), (rowOfBusWrite address value).wellFormed = true ∧
    (rowOfBusWrite address value).busWriteOf = some (address, value)) ∧
  ∀ (c : Instr) (address : BitVec 5) (value : Byte) (s : State), c.busWriteOf = some (address, value) →
    exec c s = exec (.registerWrite address value) s

/-- HARDWARE_RESET (R170): held in reset, the pins OUT are high-impedance, IRQ# is released, the slow oscillator is off, every
read of a register returns no data, and no access, raw change or event of the block is taken. That a RAW_CHANGE then moves the level
held for its pin, and nothing else, is the model's choice (log entry 24). -/
def Obligations.HardwareResetHoldsThePart : Prop :=
  ∀ s : State, ∃ t, exec .hardwareReset s = .next t ∧ t.inReset = true ∧ t.pins = s.pins ∧ t.time.slowOsc = .off ∧
    t.irqAsserted = false ∧ (∀ n : OutId, t.outPin n = .highImpedance) ∧
    ∀ u : State, u.inReset = true →
      (∀ address : BitVec 5, u.readRegister address = none) ∧
      (∀ c : Instr, c ≠ .hardwareReset → (∀ levels, c ≠ .resetRelease levels) → (∀ n level, c ≠ .rawChange n level) →
        exec c u = .next u) ∧
      (∀ (n : InId) (level : Bool), exec (.rawChange n level) u = .next (u.setPin n level))

/-- RESET_RELEASE (R170): every block at its hardware reset values (R22, R40, R49, R96, R114, R134, R150, R171), the input lines'
levels from their pins. The model's choices in it: that it acts in every state (log entry 14), the data byte 0 (log entry 8), that
the queue of waiting commands stands (log entry 29), the walk command `none` (log entry 18), and the model's own mark examOwed (log
entry 30). -/
def Obligations.ResetReleaseSetsEveryBlock : Prop :=
  ∀ (levels : Byte) (s : State), ∃ t, exec (.resetRelease levels) s = .next t ∧
    t.inReset = false ∧ (∀ n : InId, t.pin n = levels.getLsbD n.val) ∧ t.busData = 0 ∧ t.pending = s.pending ∧
    t.time = {
      now := 0, state := .stopped, prescale := 0, stepReg := 1, coarse := 1, prescaleCount := 0, slowOsc := .off
      readyOutstanding := false, slowCount := 0, heldAdvances := [], examOwed := false } ∧
    (∀ i : SlotId, t.slot i = {
        prog := ⟨.notify, .once, .ignore, false, 0, .low, .none, 0, 0, 0, 0, 0, 0, 0xFF⟩
        state := .free, pendingMark := false, disarmMark := false, occurrences := 0, launchTime := 0, schedStart := 0
        held := none }) ∧
    t.due = [] ∧ (∀ n : OutId, t.out n = { rest := false, claims := [], enable := false, openDrain := false }) ∧
    (∀ n : InId, t.inp n = {
        sense := .off, filter := 0, reportEnable := false, wakeEnable := false
        raw := levels.getLsbD n.val, qualified := levels.getLsbD n.val, deadline := none, events := 0, binding := []
        delivery := none }) ∧
    t.report = { queue := [], retire := [], gap := false, threshold := 1 } ∧
    t.cmd = ⟨false, 0, 0, 0, .none, 0, 0, 0, 0⟩ ∧
    t.port = ⟨0, 0, 0, 0, 0, ⟨false, false, false, false, false⟩, 0⟩

/-- The window after a hardware reset (R171): the pointers, snapshots, flags and enables are 0, IRQ# is released, and every register
reads 00h. That RESET_RELEASE does so in every state, also outside reset, is the model's choice (log entry 14). -/
def Obligations.WindowAfterHardwareReset : Prop :=
  ∀ (levels : Byte) (s : State), ∃ t, exec (.resetRelease levels) s = .next t ∧
    t.port.recSel = 0 ∧ t.port.fieldSel = 0 ∧ t.port.snapOcc = 0 ∧ t.port.snapDue = 0 ∧ t.port.nowSnap = 0 ∧
    t.irqFlags = 0 ∧ t.port.enables = 0 ∧ t.irqAsserted = false ∧
    ∀ address : BitVec 5, t.readRegister address = some 0

/-- SOFT_RESET (R168): what each block loses and keeps; a CONTROL write with bit 0 clear changes nothing. That the raw level stands also
where a raw change waited on a delivery that the reset ends is the model's choice (log entry 11), and so is the walk command `none`
(log entry 18). -/
def Obligations.SoftResetEmptiesTheWork : Prop :=
  ∀ (value : Byte) (s : State), s.inReset = false →
    (value.getLsbD 0 = true → ∃ t, exec (.softReset value) s = .next t ∧
      (∀ i : SlotId, t.slot i = {}) ∧ t.due = [] ∧
      (∀ n : OutId, t.out n = { s.out n with claims := [] } ∧ (t.out n).level = (s.out n).rest) ∧
      (∀ n : InId, t.inp n = { s.inp n with binding := [], delivery := none }) ∧
      t.report = { queue := [], retire := [], gap := false, threshold := s.report.threshold } ∧
      t.cmd = ⟨false, s.cmd.arg, 0, 0, .none, 0, 0, 0, 0⟩ ∧
      t.time = s.time ∧
      t.port = { s.port with snapOcc := 0, snapDue := 0, flags := ⟨false, false, false, false, false⟩ } ∧
      t.irqFlags = 0 ∧ t.irqAsserted = false ∧
      t.inReset = false ∧ t.pins = s.pins ∧ t.busData = s.busData ∧ t.pending = s.pending) ∧
    (value.getLsbD 0 = false → exec (.registerWrite 0x01 value) s = .next s)

/-! ### The command protocol -/

/-- Every COMMAND write while BUSY is refused with CRF and nothing else, whatever its code (R139). -/
def Obligations.CommandWhileBusyIsRefused : Prop :=
  ∀ (c : Instr) (code : Byte) (s : State), c.busWriteOf = some (0x04, code) → s.inReset = false → s.cmd.busy = true →
    exec c s = .next { s with port.flags.crf := true }

/-- The checks of a COMMAND write before any block is reached: the code, then the argument of the slot and group commands (R138). -/
def Obligations.CodeAndArgumentChecks : Prop :=
  ∀ s : State, TakesCommands s →
    (∀ code : Byte, code.toNat = 0 ∨ 0x0D ≤ code.toNat → exec (.badCommand code) s = .next (withResult s 0x07 0)) ∧
    (0x20 ≤ s.cmd.arg.toNat → ∀ c ∈ [Instr.arm, .launch, .cancel, .release], exec c s = .next (withResult s 0x02 0)) ∧
    (0x08 ≤ s.cmd.arg.toNat → ∀ c ∈ [Instr.launchGroup, .cancelGroup], exec c s = .next (withResult s 0x02 0))

/-! ### Slots (chapter 1) -/

/-- ALLOC (R13): the lowest-numbered FREE slot becomes HELD, or NO_SLOT with FFh. -/
def Obligations.AllocReservesLowestFree : Prop :=
  ∀ s : State, TakesCommands s →
    (∀ i : SlotId, (s.slot i).state = .free → (∀ j : SlotId, j < i → (s.slot j).state ≠ .free) →
      exec .alloc s = .next (withResult (s.setSlot i { s.slot i with state := .held }) 0x00 (BitVec.ofNat 8 i.val))) ∧
    ((∀ i : SlotId, (s.slot i).state ≠ .free) → exec .alloc s = .next (withResult s 0x01 0xFF))

/-- RELEASE (R14) by the state of the slot; a launch that later reaches the freed slot is LOST. -/
def Obligations.ReleaseByState : Prop :=
  ∀ (s : State) (i : SlotId), TakesCommands s → ArgIs s i →
    ((s.slot i).state = .held →
      let t := withResult (s.setSlot i { prog := { next := 0xFF }, state := .free }) 0x00 0
      exec .release s = .next t ∧ ∀ l : Launch, l.target = i → outcomeOf t l = .lost) ∧
    ((s.slot i).state = .free → exec .release s = .next (withResult s 0x00 0)) ∧
    ((s.slot i).state ≠ .held → (s.slot i).state ≠ .free → exec .release s = .next (withResult s 0x03 0))

/-- ARM refused (R15, R16): BAD_STATE outside HELD; in HELD the first failing row of R16's table gives BAD_FIELD and the field. -/
def Obligations.ArmReportsFirstFailure : Prop :=
  ∀ (s : State) (i : SlotId), TakesCommands s → ArgIs s i →
    ((s.slot i).state ≠ .held → exec .arm s = .next (withResult s 0x03 0)) ∧
    ∀ (passed : List (Bool × Byte)) (field : Byte) (later : List (Bool × Byte)), (s.slot i).state = .held →
      armChecks (s.slot i).prog = passed ++ (true, field) :: later → (∀ row ∈ passed, row.1 = false) →
      exec .arm s = .next (withResult s 0x04 field)

/-- ARM accepted (R17): OCCURRENCES 0, and the armed state by LAUNCH. The mark that a run's beginning notes is the model's own (log
entry 30). -/
def Obligations.ArmEntersArmedState : Prop :=
  ∀ (s : State) (i : SlotId), TakesCommands s → ArgIs s i → (s.slot i).state = .held → PassesArm (s.slot i).prog →
    ((s.slot i).prog.launch = .once →
      exec .arm s =
        .next (withResult (runBegun (examNoted s) i s.time.now (s.time.now + (s.slot i).prog.delay) (s.slot i).pendingMark) 0x00 0)) ∧
    ((s.slot i).prog.launch = .input →
      exec .arm s = .next (withResult
        ((s.setSlot i { s.slot i with state := .bound, occurrences := 0 }).setInp (s.slot i).prog.source
          { s.inp (s.slot i).prog.source with binding := (s.inp (s.slot i).prog.source).binding ++ [i] }) 0x00 0)) ∧
    ((s.slot i).prog.launch = .chain →
      exec .arm s = .next (withResult (s.setSlot i { s.slot i with state := .bound, occurrences := 0 }) 0x00 0))

/-- CANCEL of a slot in BOUND, WAITING or DRIVING that is not an INPUT slot (R18): entry and claim out, pending mark clear, the
CANCELLED record, then HELD or RETIRING. -/
def Obligations.CancelEndsActivity : Prop :=
  ∀ (s : State) (i : SlotId), TakesCommands s → ArgIs s i →
    ((s.slot i).state = .bound ∨ (s.slot i).state = .waiting ∨ (s.slot i).state = .driving) →
    (s.slot i).prog.launch ≠ .input →
    let u := if (s.slot i).state = .bound then s else runAbandoned s i
    exec .cancel s = .next (withResult (cancelledRecord (u.setSlot i { s.slot i with pendingMark := false }) i) 0x00 0)

/-- CANCEL of an INPUT slot in BOUND, WAITING or DRIVING (R18, R111): it also leaves its binding list and the line's delivery; a
delivery that this empties completes (R107, its place among the steps is log entry 12), and the pin is compared as a RAW_CHANGE
compares it. -/
def Obligations.CancelTakesInputSlotOut : Prop :=
  ∀ (s : State) (i : SlotId), TakesCommands s → ArgIs s i →
    ((s.slot i).state = .bound ∨ (s.slot i).state = .waiting ∨ (s.slot i).state = .driving) →
    (s.slot i).prog.launch = .input →
    let n := (s.slot i).prog.source
    let l := s.inp n
    let u := (if (s.slot i).state = .bound then s else runAbandoned s i).setSlot i { s.slot i with pendingMark := false }
    let out := l.binding.filter fun j => j != i
    (l.delivery = none →
      exec .cancel s = .next (withResult (cancelledRecord (u.setInp n { l with binding := out }) i) 0x00 0)) ∧
    ∀ d : Delivery, l.delivery = some d →
      let slots := d.slots.filter fun j => j != i
      let v := u.setInp n { l with binding := out, delivery := some { d with slots := slots } }
      (slots ≠ [] → exec .cancel s = .next (withResult (cancelledRecord v i) 0x00 0)) ∧
      (slots = [] → ∃ w, exec (.rawChange n (s.pin n)) (deliveryClosed v n) = .next w ∧
        exec .cancel s = .next (withResult (cancelledRecord w i) 0x00 0))

/-- CANCEL of a RETIRING slot changes its marks and its binding, not its held record; in HELD or FREE it is BAD_STATE (R19). The
delivery that it empties is covered by the third clause: that it completes within the cancel, and the comparison of the pin there, rest
on log entry 12. -/
def Obligations.CancelOfRetiringSlot : Prop :=
  ∀ (s : State) (i : SlotId), TakesCommands s → ArgIs s i →
    let n := (s.slot i).prog.source
    let l := s.inp n
    let u := s.setSlot i { s.slot i with pendingMark := false, disarmMark := true }
    let out := l.binding.filter fun j => j != i
    ((s.slot i).state = .retiring → ((s.slot i).prog.launch ≠ .input ∨ (s.slot i).disarmMark = true) →
      exec .cancel s = .next (withResult u 0x00 0)) ∧
    ((s.slot i).state = .retiring → (s.slot i).prog.launch = .input → (s.slot i).disarmMark = false → l.delivery = none →
      exec .cancel s = .next (withResult (u.setInp n { l with binding := out }) 0x00 0)) ∧
    ((s.slot i).state = .retiring → (s.slot i).prog.launch = .input → (s.slot i).disarmMark = false →
      ∀ d : Delivery, l.delivery = some d →
        let slots := d.slots.filter fun j => j != i
        let v := u.setInp n { l with binding := out, delivery := some { d with slots := slots } }
        (slots ≠ [] → exec .cancel s = .next (withResult v 0x00 0)) ∧
        (slots = [] → ∃ w, exec (.rawChange n (s.pin n)) (deliveryClosed v n) = .next w ∧
          exec .cancel s = .next (withResult w 0x00 0))) ∧
    ((s.slot i).state = .held ∨ (s.slot i).state = .free → exec .cancel s = .next (withResult s 0x03 0))

/-! ### Launches (chapter 4) -/

/-- LAUNCH (R67): a command launch with launch time NOW, taken by the table of section 4.2, and its result; a slot number above 31 is
refused. The mark that a launch notes is the model's own (log entry 30). -/
def Obligations.LaunchCommandTellsOutcome : Prop :=
  ∀ s : State, TakesCommands s →
    (∀ i : SlotId, ArgIs s i →
      let l : Launch := ⟨i, .command, 0, s.time.now⟩
      exec .launch s = .next (withResult (launched (examNoted s) l) (launchResult (outcomeOf s l)) 0)) ∧
    (31 < s.cmd.arg.toNat → exec .launch s = .next (withResult s 0x02 0))

/-- Two entries that are not reached when they are inserted: the first entry of a run that a chain launch begins or restarts, with its
one-tick minimum (R65), for any DELAY that ARM accepts; and the END entry of a pulse that passed the missed test, which lies 1 to
WIDTH ticks ahead (R55). The run of a pending mark that a chain launch set is no such run: it has no one-tick minimum (R65), and the
model lets it begin at the NOW of the finish where R79 says later (log entry 34). -/
def Obligations.ChainAndPulseEntriesLieAhead : Prop :=
  (∀ (p : Program) (l : Launch), p.delay.toNat ≤ 4194303 → l.kind = .chain →
    reached (launchDue p l) l.time = false ∧ distance l.time (launchDue p l) = max p.delay.toNat 1) ∧
  ∀ (due now : Tick) (width : Half), (lateness due now).toNat < width.toNat →
    reached (due + width.setWidth 24) now = false ∧
      1 ≤ distance now (due + width.setWidth 24) ∧ distance now (due + width.setWidth 24) ≤ width.toNat

/-! ### Time base (chapter 2) -/

/-- The reached test splits the circle of 16,777,216 values into two halves (R25), and the lateness is the distance, at most 65,535
(R26). -/
def Obligations.ReachedAndLateness : Prop :=
  ∀ d now : Tick, (reached d now = true ↔ (now.toNat + 16777216 - d.toNat) % 16777216 < 8388608) ∧
    (lateness d now).toNat = min ((now.toNat + 16777216 - d.toNat) % 16777216) 65535

/-- START (R30): from STOPPED to RUNNING with the prescale count 0 and NOW as it is, and, where an entry or a deadline is reached, with
the examination owed that comes before the first advance (the mark for it is the model's own, log entry 30); BAD_STATE elsewhere. STOP
(R31, R175): NOW held, the oscillator OFF, the counts and the held advances discarded, no collection touched; BAD_STATE in STOPPED. -/
def Obligations.StartAndStop : Prop :=
  ∀ s : State, TakesCommands s →
    (s.time.state = .stopped →
      let started : State := { s with time := { s.time with state := .running, prescaleCount := 0 } }
      exec .start s =
        .next (withResult { started with time := { started.time with examOwed := followUpWaits started } } 0x00 0) ∧
      exec .stop s = .next (withResult s 0x03 0)) ∧
    (s.time.state ≠ .stopped →
      exec .start s = .next (withResult s 0x03 0) ∧
      exec .stop s = .next (withResult { s with time := { s.time with
        state := .stopped, slowOsc := .off, prescaleCount := 0, slowCount := 0, heldAdvances := []
        examOwed := false } } 0x00 0))

/-- DOZE (R32): K taken from a STEP of 1 to 4,096 in RUNNING; BAD_FIELD with 2 for another STEP; BAD_STATE elsewhere. -/
def Obligations.DozeTakesStep : Prop :=
  ∀ s : State, TakesCommands s →
    (s.time.state = .running → 1 ≤ s.time.stepReg.toNat → s.time.stepReg.toNat ≤ 4096 →
      exec .doze s = .next (withResult { s with time := { s.time with
        state := .enteringDoze, coarse := s.time.stepReg, slowOsc := .starting, readyOutstanding := true } } 0x00 0)) ∧
    (s.time.state = .running → s.time.stepReg.toNat = 0 ∨ 4096 < s.time.stepReg.toNat →
      exec .doze s = .next (withResult s 0x04 2)) ∧
    (s.time.state ≠ .running → exec .doze s = .next (withResult s 0x03 0))

/-- WAKE (R35): the end of a doze without WAK; BAD_STATE in STOPPED and RUNNING. A wake request after it finds RUNNING and sets no flag;
a WAKE after a wake request completes with BAD_STATE. -/
def Obligations.WakeEndsDoze : Prop :=
  ∀ s : State, TakesCommands s →
    (s.time.state = .enteringDoze → exec .wake s = .next (withResult
      { s with time := { s.time with state := .running, slowOsc := .off } } 0x00 0)) ∧
    (s.time.state = .dozing → exec .wake s = .next (withResult
      { s with time := { s.time with state := .running, slowOsc := .off, slowCount := 0, prescaleCount := 0 } } 0x00 0)) ∧
    (s.time.state = .stopped ∨ s.time.state = .running → exec .wake s = .next (withResult s 0x03 0)) ∧
    (∀ t : State, exec .wake s = .next t → woken t = t) ∧
    (s.time.state = .enteringDoze ∨ s.time.state = .dozing →
      (woken s).port.flags.wak = true ∧ exec .wake (woken s) = .next (withResult (woken s) 0x03 0))

/-- READY_EVENT (R33): taken in ENTERING_DOZE with the oscillator STARTING; in any other time state it changes nothing. Which
outstanding mark the model keeps is log entry 20. -/
def Obligations.ReadyEventEntersDozing : Prop :=
  ∀ s : State, s.inReset = false →
    (s.time.state = .enteringDoze → s.time.slowOsc = .starting → s.time.readyOutstanding = true →
      exec .readyEvent s = .next { s with time := { s.time with
        state := .dozing, slowOsc := .ready, prescaleCount := 0, slowCount := 0, readyOutstanding := false } }) ∧
    (s.time.state ≠ .enteringDoze → exec .readyEvent s = .next s)

/-- ADVANCE as it falls due. From CLKIN in RUNNING and ENTERING_DOZE (R27): the prescale count counts one edge, and the edge that brings
it to the divisor PRESCALE + 1 returns it to 0 with an advance of one tick. From the slow oscillator in DOZING (R34): an advance of K
ticks at the end of each slow period. In the other time states neither does anything. An advance that falls due is made at once, or
held back during a delivery (R106), before the end of the examination that START began (R30), or where the reached test would turn back
on a time that is still kept (R45). The model's choices: what `prescaler` and `slowPart` stand for (log entries 4 and 5), how an advance
waits (log entries 2 and 30) and its place behind older held ones (log entry 6). -/
def Obligations.AdvanceFallsDue : Prop :=
  ∀ s : State, s.inReset = false →
    (s.time.state = .running ∨ s.time.state = .enteringDoze →
      (s.time.prescaleCount.toNat + 1 < s.time.prescale.toNat + 1 →
        exec (.advance .clkinEdge) s =
          .next { s with time := { s.time with prescaleCount := s.time.prescaleCount + 1 } }) ∧
      (s.time.prescale.toNat + 1 ≤ s.time.prescaleCount.toNat + 1 →
        exec (.advance .clkinEdge) s = .next (advanceTaken { s with time := { s.time with prescaleCount := 0 } } 1)) ∧
      exec (.advance .prescaler) s = .next (advanceTaken { s with time := { s.time with prescaleCount := 0 } } 1)) ∧
    (s.time.state = .stopped ∨ s.time.state = .dozing →
      exec (.advance .clkinEdge) s = .next s ∧ exec (.advance .prescaler) s = .next s) ∧
    (s.time.state = .dozing →
      exec (.advance .slowPeriod) s =
        .next (advanceTaken { s with time := { s.time with slowCount := 0 } } (s.time.coarse.setWidth 24)) ∧
      exec (.advance .slowPart) s = .next { s with time := { s.time with slowCount := s.time.slowCount + 1 } }) ∧
    (s.time.state ≠ .dozing → exec (.advance .slowPeriod) s = .next s ∧ exec (.advance .slowPart) s = .next s)

/-- The held advances (R175): made one after another, oldest first, each with the size it had, once no delivery is in progress; while more
are held, the next waits for the examination and the checks of the one before, for which the model keeps its mark (log entries 7 and
30). The first one waits for no entry that an advance before had reached. -/
def Obligations.HeldAdvancesAreMadeInOrder : Prop :=
  ∀ (s : State) (size : Tick) (rest : List Tick), s.inReset = false → s.time.heldAdvances = size :: rest →
    (¬ AdvanceWaits s size → exec (.advance .held) s = .next (heldMade s size rest)) ∧
    (AdvanceWaits s size → exec (.advance .held) s = .next s)

/-- A divisor's worth of CLKIN edges is one tick: as many edges as the divisor still lacks do what `prescaler` says in one event
(R27). -/
def Obligations.DivisorEdgesMakeOneTick : Prop :=
  ∀ s : State, s.time.onClkin = true → s.time.prescaleCount.toNat ≤ s.time.prescale.toNat →
    (State.clkinEdge)^[s.time.prescale.toNat + 1 - s.time.prescaleCount.toNat] s = s.prescalerFull

/-- NOW moves by advances alone (R24): no other command but the hardware reset's two changes it, and an advance adds one tick, K, or
the size of the oldest held advance, or nothing. -/
def Obligations.NowMovesOnlyByAdvances : Prop :=
  ∀ (c : Instr) (s t : State), exec c s = .next t →
    ((∀ source, c ≠ .advance source) → c ≠ .hardwareReset → (∀ levels, c ≠ .resetRelease levels) →
      t.time.now = s.time.now) ∧
    (∀ source, c = .advance source →
      t.time.now = s.time.now ∨ t.time.now = s.time.now + 1 ∨ t.time.now = s.time.now + s.time.coarse.setWidth 24 ∨
      ∃ size rest, s.time.heldAdvances = size :: rest ∧ t.time.now = s.time.now + size)

/-! ### Due list and expiries (chapter 3) -/

/-- Insertion (R44): after every entry whose due time is earlier or equal, before every later one, the others in their order. -/
def Obligations.InsertionPlace : Prop :=
  ∀ (now : Tick) (e : Entry) (l : List Entry), Ordered now l →
    Ordered now (dueInsert now e l) ∧
    ∃ before after, l = before ++ after ∧ dueInsert now e l = before ++ e :: after ∧
      (∀ x ∈ before, earliness now x.due ≤ earliness now e.due) ∧
      (∀ x ∈ after, earliness now e.due < earliness now x.due)

/-- An advance moves NOW, not the entries, and the order keeps its meaning (R43), as long as no reached entry is left until the test
would turn back (R45) and the advance is less than half the circle. -/
def Obligations.OrderOutlivesAdvance : Prop :=
  ∀ (now size : Tick) (l : List Entry), Ordered now l → size.toNat < 8388608 →
    (∀ e ∈ l, reached e.due now = true → distance e.due now + size.toNat < 8388608) →
    Ordered (now + size) l

/-- START_EXPIRY of a NOTIFY or LEVEL slot (R50, R51, R52): the scheduled start, the wake request, the rest level, and then the end of
the occurrence, whose chain launch may change a second line within the expiry (log entry 32) and set the mark of a RETIRING target (log
entries 34 and 35). -/
def Obligations.StartExpiryOfNotifyAndLevel : Prop :=
  ∀ (s : State) (i : SlotId) (due : Tick) (rest : List Entry), HeadReached s i due .start rest →
    let p := (s.slot i).prog
    let l := s.out p.line
    let u : State := { s.setSlot i { s.slot i with schedStart := due } with due := rest }
    let v := if p.wake then woken u else u
    let late := lateness due s.time.now
    (p.kind = .notify → exec .startExpiry s = .next (occurrenceOver v i .occur late)) ∧
    (p.kind = .level → p.value = .low →
      exec .startExpiry s = .next (occurrenceOver (v.setOut p.line { l with rest := false }) i .occur late)) ∧
    (p.kind = .level → p.value = .high →
      exec .startExpiry s = .next (occurrenceOver (v.setOut p.line { l with rest := true }) i .occur late)) ∧
    (p.kind = .level → p.value = .invert →
      exec .startExpiry s = .next (occurrenceOver (v.setOut p.line { l with rest := !l.rest }) i .occur late))

/-- START_EXPIRY of a PULSE slot (R50, R53, R54, R55): missed at a lateness of WIDTH or more, refused by a stack of 4 claims, else the
claim stands on top, the slot drives and its END entry is due at the scheduled start plus WIDTH. The chain launch of a run that ends so
may change a line within the expiry (log entry 32) and set the mark of a RETIRING target (log entries 34 and 35). -/
def Obligations.StartExpiryOfPulse : Prop :=
  ∀ (s : State) (i : SlotId) (due : Tick) (rest : List Entry), HeadReached s i due .start rest →
    (s.slot i).prog.kind = .pulse → ((s.slot i).prog.value = .low ∨ (s.slot i).prog.value = .high) →
    let p := (s.slot i).prog
    let l := s.out p.line
    let u : State := { s.setSlot i { s.slot i with schedStart := due } with due := rest }
    let v := if p.wake then woken u else u
    let late := lateness due s.time.now
    (p.width.toNat ≤ late.toNat → exec .startExpiry s = .next (occurrenceOver v i .missed late)) ∧
    (late.toNat < p.width.toNat → 4 ≤ l.claims.length →
      exec .startExpiry s = .next (occurrenceOver v i .claimRefused late)) ∧
    (late.toNat < p.width.toNat → l.claims.length < 4 →
      exec .startExpiry s = .next
        { (v.setOut p.line { l with claims := ⟨i, p.value = .high⟩ :: l.claims }).setSlot i
            { s.slot i with schedStart := due, state := .driving } with
          due := dueInsert s.time.now ⟨i, due + p.width.setWidth 24, .stop⟩ rest })

/-- END_EXPIRY (R56): the claim leaves the stack wherever it stands, and the occurrence is over; its chain launch may change a second
line within the expiry (log entry 32) and set the mark of a RETIRING target (log entries 34 and 35). -/
def Obligations.EndExpiryEndsPulse : Prop :=
  ∀ (s : State) (i : SlotId) (due : Tick) (rest : List Entry), HeadReached s i due .stop rest →
    let n := (s.slot i).prog.line
    let u : State := { s with due := rest }
    exec .endExpiry s = .next (occurrenceOver
      (u.setOut n { s.out n with claims := (s.out n).claims.filter fun c => c.slot != i }) i .occur (lateness due s.time.now))

/-- In STOPPED the head is not examined, and a head that is not reached is not handed over (R46); that the untimely event changes
nothing is log entry 1. -/
def Obligations.NoExpiryBeforeItsTime : Prop :=
  ∀ s : State, (s.time.state = .stopped ∨ s.due = [] ∨ ∃ e rest, s.due = e :: rest ∧ reached e.due s.time.now = false) →
    exec .startExpiry s = .next s ∧ exec .endExpiry s = .next s

/-! ### Output lines (chapter 5) -/

/-- LINE_REST_WRITE (R89), LINE_EN_WRITE and LINE_OD_WRITE (R92): one item of the eight lines of the register takes the written bits,
and nothing else changes. -/
def Obligations.LineWritesSetEightLines : Prop :=
  ∀ (bank : Bank) (b : Byte) (s : State), s.inReset = false →
    (∃ t, exec (.lineRestWrite bank b) s = .next t ∧ t = { s with outs := t.outs } ∧
      ∀ k : Fin 8, t.out (lineOf bank k) = { s.out (lineOf bank k) with rest := b.getLsbD k.val } ∧
        ∀ n : OutId, (∀ j : Fin 8, n ≠ lineOf bank j) → t.out n = s.out n) ∧
    (∃ t, exec (.lineEnWrite bank b) s = .next t ∧ t = { s with outs := t.outs } ∧
      ∀ k : Fin 8, t.out (lineOf bank k) = { s.out (lineOf bank k) with enable := b.getLsbD k.val } ∧
        ∀ n : OutId, (∀ j : Fin 8, n ≠ lineOf bank j) → t.out n = s.out n) ∧
    (∃ t, exec (.lineOdWrite bank b) s = .next t ∧ t = { s with outs := t.outs } ∧
      ∀ k : Fin 8, t.out (lineOf bank k) = { s.out (lineOf bank k) with openDrain := b.getLsbD k.val } ∧
        ∀ n : OutId, (∀ j : Fin 8, n ≠ lineOf bank j) → t.out n = s.out n)

/-- The pin of a line by enable, open-drain mode and logical level (R91), the logical level by the top claim or the rest level
(R83). -/
def Obligations.PinsFollowTheLine : Prop :=
  ∀ (s : State) (n : OutId), s.inReset = false →
    ((s.out n).level = match (s.out n).claims with | [] => (s.out n).rest | c :: _ => c.level) ∧
    (s.outPin n = .drivenLow ↔ (s.out n).enable = true ∧ (s.out n).level = false) ∧
    (s.outPin n = .drivenHigh ↔ (s.out n).enable = true ∧ (s.out n).openDrain = false ∧ (s.out n).level = true) ∧
    (s.outPin n = .highImpedance ↔ (s.out n).enable = false ∨ ((s.out n).openDrain = true ∧ (s.out n).level = true))

/-! ### Input lines (chapter 6) -/

/-- RAW_CHANGE by the state of the line (R100, R101, R102, R108): nothing while a delivery holds the line or the levels agree; under
sense OFF the qualified level follows; in QUALIFYING the glitch is rejected; in STEADY the change is qualified at once or begins a
qualification. -/
def Obligations.RawChangeByLineState : Prop :=
  ∀ (n : InId) (level : Bool) (s : State), s.inReset = false →
    let l := s.inp n
    let u := s.setPin n level
    (level = l.raw ∨ l.delivery ≠ none → exec (.rawChange n level) s = .next u) ∧
    (level ≠ l.raw → l.delivery = none →
      (l.sense = .off →
        exec (.rawChange n level) s = .next (u.setInp n { l with raw := level, qualified := level, deadline := none })) ∧
      (l.sense ≠ .off → l.deadline ≠ none →
        exec (.rawChange n level) s = .next (u.setInp n { l with raw := level, deadline := none })) ∧
      (l.sense ≠ .off → l.deadline = none → l.filter ≠ 0 →
        exec (.rawChange n level) s =
          .next (u.setInp n { l with raw := level, deadline := some (s.time.now + l.filter.setWidth 24) })) ∧
      (l.sense ≠ .off → l.deadline = none → l.filter = 0 → ¬ matchesSense l.sense level →
        exec (.rawChange n level) s = .next (u.setInp n { l with raw := level, qualified := level })) ∧
      (l.sense ≠ .off → l.deadline = none → l.filter = 0 → matchesSense l.sense level →
        exec (.rawChange n level) s = .next (edgeTaken (u.setInp n { l with raw := level, qualified := level }) n)))

/-- QUALIFICATION_COMPLETE (R103, R105): a reached deadline outside STOPPED qualifies the raw level; a match is an edge; and a
raw return that waited is then taken as a RAW_CHANGE takes it (R104, R107). A deadline that is absent or not reached, or a stopped
time base (log entry 26), changes nothing. -/
def Obligations.QualificationCompletes : Prop :=
  ∀ (n : InId) (s : State), s.inReset = false →
    let l := s.inp n
    let u := s.setInp n { l with qualified := l.raw, deadline := none }
    (∀ d : Tick, l.deadline = some d → reached d s.time.now = true → s.time.state ≠ .stopped →
      (matchesSense l.sense l.raw →
        ∃ t, exec (.rawChange n (s.pin n)) (edgeTaken u n) = .next t ∧ exec (.qualificationComplete n) s = .next t) ∧
      (¬ matchesSense l.sense l.raw →
        ∃ t, exec (.rawChange n (s.pin n)) u = .next t ∧ exec (.qualificationComplete n) s = .next t)) ∧
    ((∀ d : Tick, l.deadline = some d → reached d s.time.now = true → s.time.state = .stopped) →
      exec (.qualificationComplete n) s = .next s)

/-- INPUT_LAUNCH (R66, R106, R107): the front slot of the delivery leaves it and takes a launch with launch time NOW, by the table of
section 4.2; after the last one the delivery closes and the pin is compared as a RAW_CHANGE compares it. The mark that a launch notes is
the model's own (log entry 30). -/
def Obligations.InputLaunchDelivers : Prop :=
  ∀ (n : InId) (s : State) (d : Delivery) (i : SlotId) (rest : List SlotId), s.inReset = false →
    (s.inp n).delivery = some d → d.slots = i :: rest →
    let u := s.setInp n { s.inp n with delivery := some { d with slots := rest, delivered := d.delivered + 1 } }
    let v := launched (examNoted u) ⟨i, .input, BitVec.ofNat 8 n.val, s.time.now⟩
    (rest ≠ [] → exec (.inputLaunch n) s = .next v) ∧
    (rest = [] → ∃ t, exec (.rawChange n (s.pin n)) (deliveryClosed v n) = .next t ∧ exec (.inputLaunch n) s = .next t)

/-- The events of one input line do not touch another (section 6, first paragraph), nor the line's own settings and binding list. -/
def Obligations.InputLinesShareNothing : Prop :=
  ∀ (c : Instr) (n : InId) (s t : State),
    (c = .qualificationComplete n ∨ c = .inputLaunch n ∨ ∃ level, c = .rawChange n level) → exec c s = .next t →
    (∀ m : InId, m ≠ n → t.inp m = s.inp m) ∧
    (t.inp n).sense = (s.inp n).sense ∧ (t.inp n).filter = (s.inp n).filter ∧
    (t.inp n).reportEnable = (s.inp n).reportEnable ∧ (t.inp n).wakeEnable = (s.inp n).wakeEnable ∧
    (t.inp n).binding = (s.inp n).binding

/-! ### Report unit (chapter 7) -/

/-- POP (R124): nothing on an empty queue; else the head leaves, and the oldest retiring slot, if any, stores its held record and takes
its retire completion (R21, R126). A read of RPT_POP returns 00h. The mark that a pending run notes as it begins
is the model's own (log entry 30). That the run begins here also where a chain launch set its mark at this NOW, or from a ONCE slot's
own chain, is log entries 34 and 35; the gap bit that the held record takes is log entry 36. -/
def Obligations.PopTakesTheHead : Prop :=
  ∀ (value : Byte) (s : State), s.inReset = false →
    (s.report.queue = [] → exec (.pop value) s = .next s) ∧
    (∀ head rest, s.report.queue = head :: rest → s.report.retire = [] →
      exec (.pop value) s = .next { s with report := { s.report with queue := rest } }) ∧
    (∀ head rest i others h, s.report.queue = head :: rest → s.report.retire = i :: others → (s.slot i).held = some h →
      exec (.pop value) s = .next (released { s with report := { s.report with queue := rest } } i h)) ∧
    s.readRegister 0x0F = some 0

/-- FLUSH (R127): the queue emptied, the gap mark cleared, and the oldest 16 retiring slots released in order, their held records with
gap bit 0 the new queue. That they are released within the FLUSH is the model's reading (log entry 33), and the mark that a pending run
notes as it begins is its own (log entry 30). That the run begins here also where a chain launch set its mark at this NOW, or from a
ONCE slot's own chain, is log entries 34 and 35. -/
def Obligations.FlushReleasesInOrder : Prop :=
  ∀ s : State, TakesCommands s → ReportLaw s → (∀ i : SlotId, (s.slot i).held.isSome = true ↔ (s.slot i).state = .retiring) →
    ∃ t, exec .flush s = .next t ∧ t.cmd = { s.cmd with result := 0, value := 0 } ∧
      t.port = { s.port with flags := { s.port.flags with cmd := true } } ∧
      t.report = { s.report with
        queue := (s.report.retire.take 16).filterMap fun i => (s.slot i).held.map fun h => storedFinal h i
        retire := s.report.retire.drop 16
        gap := false } ∧
      (∀ i ∈ s.report.retire.take 16, ∀ x : Slot, x = s.slot i →
        t.slot i =
          if x.disarmMark then { x with state := .held, disarmMark := false, held := none }
          else if x.pendingMark then
            { x with state := .waiting, pendingMark := false, held := none, occurrences := 0, launchTime := s.time.now }
          else { x with state := if x.prog.launch = .once then .held else .bound, held := none }) ∧
      (∀ i : SlotId, i ∉ s.report.retire.take 16 → t.slot i = s.slot i) ∧
      t.due = (s.report.retire.take 16).foldl (fun l i =>
        if (s.slot i).disarmMark = false ∧ (s.slot i).pendingMark = true then
          dueInsert s.time.now ⟨i, s.time.now + (s.slot i).prog.delay, .start⟩ l else l) s.due ∧
      t.time = (if ∃ i ∈ s.report.retire.take 16, (s.slot i).disarmMark = false ∧ (s.slot i).pendingMark = true then
        (examNoted s).time else s.time) ∧
      t.outs = s.outs ∧ t.ins = s.ins ∧ t.pins = s.pins ∧ t.inReset = s.inReset ∧
      t.busData = s.busData ∧ t.pending = s.pending

/-- A POP and a cancel that finds the queue full, with an empty retire list, end in the same state in either order, for a slot that is
not an INPUT slot (R125). -/
def Obligations.PopAndCancelInEitherOrder : Prop :=
  ∀ (s : State) (i : SlotId) (value : Byte) (a b c d : State), TakesCommands s → ArgIs s i →
    ((s.slot i).state = .bound ∨ (s.slot i).state = .waiting ∨ (s.slot i).state = .driving) →
    (s.slot i).prog.launch ≠ .input → s.report.queue.length = 16 → s.report.retire = [] →
    (s.slot i).disarmMark = false → (s.slot i).held = none →
    exec (.pop value) s = .next a → exec .cancel a = .next b → exec .cancel s = .next c → exec (.pop value) c = .next d →
    b = d

/-! ### Group walks (chapter 8) -/

/-- LAUNCH_GROUP and CANCEL_GROUP taken (R143): BUSY, the command and group captured, T0 for LAUNCH_GROUP, position and count 0, and no
slot touched. -/
def Obligations.WalkIsTaken : Prop :=
  ∀ (s : State) (g : GroupId), TakesCommands s → s.cmd.arg = BitVec.ofNat 8 g.val →
    exec .launchGroup s = .next { s with cmd := { s.cmd with
      busy := true, walkCommand := .launchGroup, walkGroup := g, t0 := s.time.now, walkPos := 0, walkCount := 0 } } ∧
    exec .cancelGroup s = .next { s with cmd := { s.cmd with
      busy := true, walkCommand := .cancelGroup, walkGroup := g, walkPos := 0, walkCount := 0 } }

/-- VISIT (R144): a slot that does not qualify is passed over; at one that does, a LAUNCH_GROUP walk delivers a group launch with T0
(R68, R145), and a CANCEL_GROUP walk has the effect that the CANCEL command would have on the slot, without a result of its own
(R146). After slot 31 the walk completes with OK and its count (R149). A visit without a walk changes nothing (log entry 1), and the
mark that a launch notes is the model's own (log entry 30). -/
def Obligations.VisitByWalkCommand : Prop :=
  ∀ (s : State) (i : SlotId), s.inReset = false →
    (s.cmd.busy = false → exec .visit s = .next s) ∧
    (s.cmd.busy = true → s.cmd.walkPos = i.val →
      ((s.slot i).armed = false ∨ (s.slot i).prog.group ≠ s.cmd.walkGroup → exec .visit s = .next (visited s false)) ∧
      ((s.slot i).armed = true → (s.slot i).prog.group = s.cmd.walkGroup →
        (s.cmd.walkCommand = .launchGroup →
          exec .visit s =
            .next (visited (launched (examNoted s) ⟨i, .group, BitVec.ofNat 8 s.cmd.walkGroup.val, s.cmd.t0⟩) true)) ∧
        (s.cmd.walkCommand = .cancelGroup →
          ∃ t, exec .cancel { s with cmd := { s.cmd with busy := false, arg := BitVec.ofNat 8 i.val } } = .next t ∧
            exec .visit s = .next (visited { t with
              cmd := s.cmd
              port := { t.port with flags := { t.port.flags with cmd := s.port.flags.cmd } } } true))))

/-- No slot becomes armed while a walk is in progress (R147): no command taken while BUSY arms a slot. -/
def Obligations.NoSlotArmedDuringWalk : Prop :=
  ∀ (c : Instr) (s t : State), Consistent s → s.cmd.busy = true → exec c s = .next t →
    ∀ i : SlotId, (t.slot i).armed = true → (s.slot i).armed = true

/-! ### Host port (chapter 9) -/

/-- REC_SEL_WRITE (R156): bits 5 to 0 stored, and the runtime snapshot of a slot record taken: its OCCURRENCES and its NEXT DUE, which is
the due time of the slot's entry in WAITING and DRIVING and 0 in the other states (R8). -/
def Obligations.RecSelWriteSelects : Prop :=
  ∀ (b : Byte) (s : State), s.inReset = false →
    (∀ i : SlotId,
      ((s.slot i).state = .waiting ∨ (s.slot i).state = .driving → ∀ before e after, s.due = before ++ e :: after → e.slot = i →
        (∀ x ∈ before, x.slot ≠ i) → s.nextDue i = e.due) ∧
      ((s.slot i).state ≠ .waiting → (s.slot i).state ≠ .driving → s.nextDue i = 0)) ∧
    (∀ i : SlotId, b.toNat % 64 = i.val →
      exec (.recSelWrite b) s = .next { s with port := { s.port with
        recSel := BitVec.ofNat 6 i.val, snapOcc := (s.slot i).occurrences, snapDue := s.nextDue i } }) ∧
    (32 ≤ b.toNat % 64 →
      exec (.recSelWrite b) s = .next { s with port := { s.port with recSel := BitVec.ofNat 6 (b.toNat % 64) } })

/-- DATA_READ (R158, R159, R161): the field, the snapshot on F0 of an action record, FIELD_SEL one on or back to 0. A burst walks the
record round and round: k reads leave FIELD_SEL k fields on, modulo the record's length (R158). And what each field is: of an action
record F0 and the programmed fields live, F14 to F17 the snapshot (R161, R172); of the output line, input line and setup records every
field bit by bit (R94, R113, R38, R172). -/
def Obligations.DataReadReturnsField : Prop :=
  ∀ s : State, s.inReset = false →
    let r := s.port.recSel.toNat
    let f := s.port.fieldSel.toNat
    let next : Byte := if f + 1 = recordLength r then 0 else s.port.fieldSel + 1
    let F (g : Nat) : Byte := s.readField (recordRef s.port.recSel) g
    (recordLength r ≤ f → exec .dataRead s = .next { s with busData := 0xFF, port := { s.port with fieldSel := 0 } }) ∧
    (f < recordLength r → ¬ (r < 32 ∧ f = 0) →
      exec .dataRead s = .next { s with busData := F f, port := { s.port with fieldSel := next } }) ∧
    (∀ i : SlotId, r = i.val → f = 0 →
      exec .dataRead s = .next { s with
        busData := F 0
        port := { s.port with fieldSel := 1, snapOcc := (s.slot i).occurrences, snapDue := s.nextDue i } }) ∧
    (f < recordLength r → ∀ k : Nat,
      ((State.dataRead)^[k] s).port.fieldSel.toNat = (f + k) % recordLength r ∧
      exec .dataRead ((State.dataRead)^[k] s) = .next ((State.dataRead)^[k + 1] s)) ∧
    (∀ i : SlotId, r = i.val →
      F 0 = (s.slot i).f0 ∧ (∀ g, 1 ≤ g → g ≤ 13 → F g = (s.slot i).prog.field g) ∧
      F 14 = s.port.snapOcc ∧ F 17 ++ F 16 ++ F 15 = s.port.snapDue) ∧
    (∀ n : OutId, r = 32 + n.val →
      (F 0).getLsbD 0 = (s.out n).level ∧ (F 0).getLsbD 1 = (s.out n).rest ∧ (F 0).getLsbD 2 = (s.out n).enable ∧
      (F 0).getLsbD 3 = (s.out n).openDrain ∧ (F 0).getLsbD 7 = false ∧
      ((s.out n).claims.length ≤ 4 → ((F 0).extractLsb' 4 3).toNat = (s.out n).claims.length) ∧
      ∀ k, k < 4 →
        (∀ c, (s.out n).claims[k]? = some c → ((F (k + 1)).extractLsb' 0 5).toNat = c.slot.val ∧
          (F (k + 1)).extractLsb' 5 2 = 0 ∧ (F (k + 1)).getLsbD 7 = c.level) ∧
        ((s.out n).claims[k]? = none → F (k + 1) = 0xFF)) ∧
    (∀ n : InId, r = 48 + n.val →
      ((F 0).extractLsb' 0 2 = (s.inp n).sense.code ∧ (F 0).getLsbD 2 = (s.inp n).reportEnable ∧
        (F 0).getLsbD 3 = (s.inp n).wakeEnable ∧ (F 0).extractLsb' 4 4 = 0) ∧
      F 1 = (s.inp n).filter ∧
      ((F 2).getLsbD 0 = (s.inp n).raw ∧ (F 2).getLsbD 1 = (s.inp n).qualified ∧
        ((F 2).getLsbD 2 = true ↔ (s.inp n).deadline ≠ none) ∧ (F 2).extractLsb' 3 5 = 0) ∧
      F 3 = (s.inp n).events ∧ ((s.inp n).binding.length ≤ 32 → (F 4).toNat = (s.inp n).binding.length) ∧
      (∀ i others, (s.inp n).binding = i :: others → (F 5).toNat = i.val) ∧ ((s.inp n).binding = [] → F 5 = 0xFF)) ∧
    (r = 56 →
      ((F 0).extractLsb' 0 2 = s.time.state.code ∧ (F 0).extractLsb' 2 6 = 0) ∧ F 1 = s.time.prescale ∧
      F 3 ++ F 2 = s.time.stepReg ∧ F 4 = s.report.threshold)

/-- DATA_WRITE (R12, R38, R99, R159, R160): which writes are stored, what a stored one changes, and WRJ for the rest; FIELD_SEL advances
in every case. That a write to a HELD slot is stored also right after the expiry that finished a ONCE slot, or after the cancel visit
that left the slot HELD, is the model's choice of R12 over R63 and R148 (log entry 31). -/
def Obligations.DataWriteStoresOrRejects : Prop :=
  ∀ (b : Byte) (s : State), s.inReset = false →
    let r := s.port.recSel.toNat
    let f := s.port.fieldSel.toNat
    let next : Byte := if f + 1 < recordLength r then s.port.fieldSel + 1 else 0
    let moved (u : State) : State := { u with port := { u.port with fieldSel := next } }
    let rejected : State := { s with port := { s.port with
      fieldSel := next, flags := { s.port.flags with wrj := true } } }
    (recordLength r ≤ f → exec (.dataWrite b) s = .next rejected) ∧
    (∀ i : SlotId, r = i.val →
      (f = 0 ∨ 14 ≤ f ∨ ((s.slot i).state ≠ .free ∧ (s.slot i).state ≠ .held) → exec (.dataWrite b) s = .next rejected) ∧
      (1 ≤ f → f ≤ 13 → (s.slot i).state = .free ∨ (s.slot i).state = .held →
        ∃ p, (s.slot i).prog.write f b = some p ∧
          exec (.dataWrite b) s = .next (moved (s.setSlot i { s.slot i with prog := p, state := .held })))) ∧
    (32 ≤ r → r < 48 → exec (.dataWrite b) s = .next rejected) ∧
    (∀ n : InId, r = 48 + n.val →
      (2 ≤ f → exec (.dataWrite b) s = .next rejected) ∧
      (f = 1 → exec (.dataWrite b) s = .next (moved (s.setInp n { s.inp n with filter := b }))) ∧
      (f = 0 → exec (.dataWrite b) s = .next (moved (s.setInp n ((s.inp n).writeConfig b))))) ∧
    (r = 56 →
      (f = 0 ∨ (f = 1 ∧ s.time.state ≠ .stopped) ∨
          ((f = 2 ∨ f = 3) ∧ (s.time.state = .enteringDoze ∨ s.time.state = .dozing)) →
        exec (.dataWrite b) s = .next rejected) ∧
      (f = 1 → s.time.state = .stopped →
        exec (.dataWrite b) s = .next (moved { s with time := { s.time with prescale := b } })) ∧
      (f = 2 → s.time.state = .stopped ∨ s.time.state = .running →
        exec (.dataWrite b) s =
          .next (moved { s with time := { s.time with stepReg := s.time.stepReg.extractLsb' 8 8 ++ b } })) ∧
      (f = 3 → s.time.state = .stopped ∨ s.time.state = .running →
        exec (.dataWrite b) s =
          .next (moved { s with time := { s.time with stepReg := b ++ s.time.stepReg.extractLsb' 0 8 } })) ∧
      (f = 4 → exec (.dataWrite b) s = .next (moved { s with report := { s.report with threshold := b } })))

/-- A write of CONFIG (R99, R108): the three items from their bits, the sense by its code (R98), and under sense OFF a qualification
abandoned without an edge. -/
def Obligations.ConfigWriteSetsLine : Prop :=
  (Sense.off.code = 0 ∧ Sense.rise.code = 1 ∧ Sense.fall.code = 2 ∧ Sense.both.code = 3) ∧
  ∀ (l : InLine) (b : Byte),
    let m := l.writeConfig b
    m.sense.code = b.extractLsb' 0 2 ∧ m.reportEnable = b.getLsbD 2 ∧ m.wakeEnable = b.getLsbD 3 ∧ m.config = b &&& 0x0F ∧
    (m.sense = .off ↔ b.getLsbD 0 = false ∧ b.getLsbD 1 = false) ∧
    (m.sense = .off → l.deadline ≠ none → m.deadline = none ∧ m.qualified = l.raw) ∧
    (m.sense ≠ .off ∨ l.deadline = none → m.deadline = l.deadline ∧ m.qualified = l.qualified) ∧
    m.raw = l.raw ∧ m.filter = l.filter ∧ m.events = l.events ∧ m.binding = l.binding ∧ m.delivery = l.delivery

/-- The fields of the action record (R2, R172): a programmed field reads back exactly as stored, but for the bits that carry no item,
which read 0, and a write of one field leaves the others as they were; F0 to F3 pack their items bit by bit, F4 to F13 are DELAY, WIDTH,
PERIOD, COUNT and NEXT, low byte first; and the codes are the numbers of R10 and R172. -/
def Obligations.ActionFieldsPackAndReadBack : Prop :=
  (∀ (p q : Program) (f : Nat) (b : Byte), p.write f b = some q →
    q.field f = (if f = 1 then b &&& 0x7F else if f = 3 then b &&& 0x77 else b) ∧
    ∀ g, g ≠ f → q.field g = p.field g) ∧
  (SlotState.free.code = 0 ∧ SlotState.held.code = 1 ∧ SlotState.bound.code = 2 ∧ SlotState.waiting.code = 3 ∧
    SlotState.driving.code = 4 ∧ SlotState.retiring.code = 5) ∧
  (Kind.notify.code = 0 ∧ Kind.level.code = 1 ∧ Kind.pulse.code = 2 ∧ Kind.code3.code = 3) ∧
  (LaunchKind.once.code = 0 ∧ LaunchKind.input.code = 1 ∧ LaunchKind.chain.code = 2 ∧ LaunchKind.code3.code = 3) ∧
  (Policy.ignore.code = 0 ∧ Policy.restart.code = 1 ∧ Policy.queue.code = 2 ∧ Policy.code3.code = 3) ∧
  (LevelValue.low.code = 0 ∧ LevelValue.high.code = 1 ∧ LevelValue.invert.code = 2 ∧ LevelValue.code3.code = 3) ∧
  (Report.none.code = 0 ∧ Report.final.code = 1 ∧ Report.every.code = 2 ∧ Report.code3.code = 3) ∧
  (∀ p : Program, p.field 1 = p.f1 ∧ p.field 2 = p.f2 ∧ p.field 3 = p.f3 ∧
    p.field 6 ++ p.field 5 ++ p.field 4 = p.delay ∧ p.field 8 ++ p.field 7 = p.width ∧
    p.field 11 ++ p.field 10 ++ p.field 9 = p.period ∧ p.field 12 = p.count ∧ p.field 13 = p.next) ∧
  ∀ x : Slot,
    (x.f0.extractLsb' 0 3 = x.state.code ∧ x.f0.extractLsb' 3 3 = 0 ∧ x.f0.getLsbD 6 = x.disarmMark ∧
      x.f0.getLsbD 7 = x.pendingMark) ∧
    (x.prog.f1.extractLsb' 0 2 = x.prog.kind.code ∧ x.prog.f1.extractLsb' 2 2 = x.prog.launch.code ∧
      x.prog.f1.extractLsb' 4 2 = x.prog.policy.code ∧ x.prog.f1.getLsbD 6 = x.prog.wake ∧ x.prog.f1.getLsbD 7 = false) ∧
    ((x.prog.f2.extractLsb' 0 4).toNat = x.prog.line.val ∧ x.prog.f2.extractLsb' 4 2 = x.prog.value.code ∧
      x.prog.f2.extractLsb' 6 2 = x.prog.report.code) ∧
    ((x.prog.f3.extractLsb' 0 3).toNat = x.prog.source.val ∧ x.prog.f3.getLsbD 3 = false ∧
      (x.prog.f3.extractLsb' 4 3).toNat = x.prog.group.val ∧ x.prog.f3.getLsbD 7 = false)

/-- NOW_0_READ (R39, R162): bits 7 to 0 returned, bits 23 to 8 into the snapshot, and the time base unchanged. -/
def Obligations.Now0ReadTakesSnapshot : Prop :=
  ∀ s : State, s.inReset = false → ∃ t, exec .now0Read s = .next t ∧
    t = { s with busData := t.busData, port := { s.port with nowSnap := t.port.nowSnap } } ∧
    t.busData.toNat + 256 * t.port.nowSnap.toNat = s.time.now.toNat ∧
    t.readRegister 0x0B = some t.busData ∧
    ∃ now1 now2 : Byte, t.readRegister 0x0C = some now1 ∧ t.readRegister 0x0D = some now2 ∧ now2 ++ now1 ++ t.busData = s.time.now

/-- IRQ_FLAGS_WRITE (R165): each sticky flag whose bit is written 1 is cleared, the others and RPT stand; IRQ_ENABLE_WRITE (R166): bits
5 to 0 are stored. -/
def Obligations.InterruptWrites : Prop :=
  ∀ (b : Byte) (s : State), s.inReset = false →
    (∃ t, exec (.irqFlagsWrite b) s = .next t ∧ t = { s with port := { s.port with flags := t.port.flags } } ∧
      t.irqFlags.getLsbD 0 = s.irqFlags.getLsbD 0 ∧
      ∀ k, 1 ≤ k → k ≤ 5 → t.irqFlags.getLsbD k = (s.irqFlags.getLsbD k && !b.getLsbD k)) ∧
    exec (.irqEnableWrite b) s = .next { s with port := { s.port with enables := b.extractLsb' 0 6 } }

/-- The interrupt: IRQ# is asserted exactly while a flag is set together with its enable, outside reset (R167); the sticky flags stand in
their bits (R164, R173); RPT is 1 while the queue count is at least a nonzero effective threshold, which is the stored value up to 16
and 16 above (R131). -/
def Obligations.InterruptFollowsFlags : Prop :=
  ∀ s : State,
    (s.irqAsserted = true ↔
      s.inReset = false ∧ ∃ k < 6, s.irqFlags.getLsbD k = true ∧ s.port.enables.getLsbD k = true) ∧
    (s.irqFlags.getLsbD 1 = s.port.flags.ovr ∧ s.irqFlags.getLsbD 2 = s.port.flags.cmd ∧
      s.irqFlags.getLsbD 3 = s.port.flags.crf ∧ s.irqFlags.getLsbD 4 = s.port.flags.wrj ∧
      s.irqFlags.getLsbD 5 = s.port.flags.wak) ∧
    (s.irqFlags.getLsbD 0 = true ↔
      let effective := if s.report.threshold.toNat ≤ 16 then s.report.threshold.toNat else 16
      1 ≤ effective ∧ effective ≤ s.report.queue.length)

/-- REGISTER_WRITE (R154, R137, R157): CMD_ARG and FIELD_SEL store the byte, every read-only register rejects it with WRJ. -/
def Obligations.RegisterWriteStoresOrRejects : Prop :=
  ∀ (address : BitVec 5) (b : Byte) (s : State), s.inReset = false → isOtherWrite address b = true →
    (address = 0x05 → exec (.registerWrite address b) s = .next { s with cmd := { s.cmd with arg := b } }) ∧
    (address = 0x09 → exec (.registerWrite address b) s = .next { s with port := { s.port with fieldSel := b } }) ∧
    (address = 0x01 → exec (.registerWrite address b) s = .next s) ∧
    (address ≠ 0x01 → address ≠ 0x05 → address ≠ 0x09 →
      exec (.registerWrite address b) s =
        .next { s with port := { s.port with flags := { s.port.flags with wrj := true } } })

/-- Reads that show state. In hardware reset a read returns no data (R170), else the register's byte: STATUS gathers the time state, BUSY,
the queue and the retire list (R155); the registers of the command unit, the flags, the enables, the pointers, DATA, NOW, the NOW
snapshot and RPT_COUNT read as they stand (R137, R140, R164, R166, R156 to R159, R162, R130); the write-only ones read 00h (R154); the line
registers read their lines' items (R89, R92, R93, R173); the head registers read the head record's bytes, 00h on an empty queue (R132,
R173). The codes are the numbers of R28 and R116. -/
def Obligations.ReadsShowState : Prop :=
  (TimeState.stopped.code = 0 ∧ TimeState.running.code = 1 ∧ TimeState.enteringDoze.code = 2 ∧ TimeState.dozing.code = 3) ∧
  (RecordKind.occur.code = 1 ∧ RecordKind.missed.code = 2 ∧ RecordKind.done.code = 3 ∧ RecordKind.cancelled.code = 4 ∧
    RecordKind.claimRefused.code = 5 ∧ RecordKind.launchIgnored.code = 6 ∧ RecordKind.launchLost.code = 7 ∧
    RecordKind.inputEdge.code = 8) ∧
  ∀ s : State,
    (∀ address : BitVec 5, s.readRegister address = if s.inReset = true then none else some (s.registerByte address)) ∧
    ((s.registerByte 0x00).extractLsb' 0 2 = s.time.state.code ∧ (s.registerByte 0x00).getLsbD 2 = s.cmd.busy ∧
      ((s.registerByte 0x00).getLsbD 3 = true ↔ s.report.queue ≠ []) ∧
      ((s.registerByte 0x00).getLsbD 4 = true ↔ s.report.retire ≠ []) ∧ (s.registerByte 0x00).extractLsb' 5 3 = 0) ∧
    (s.registerByte 0x01 = 0 ∧ s.registerByte 0x04 = 0 ∧ s.registerByte 0x0F = 0) ∧
    (s.registerByte 0x02 = 0#2 ++ s.irqFlags ∧ s.registerByte 0x03 = 0#2 ++ s.port.enables) ∧
    (s.registerByte 0x05 = s.cmd.arg ∧ s.registerByte 0x06 = s.cmd.result ∧ s.registerByte 0x07 = s.cmd.value) ∧
    (s.registerByte 0x08 = 0#2 ++ s.port.recSel ∧ s.registerByte 0x09 = s.port.fieldSel) ∧
    (s.port.fieldSel.toNat < recordLength s.port.recSel.toNat →
      s.registerByte 0x0A = s.readField (recordRef s.port.recSel) s.port.fieldSel.toNat) ∧
    (recordLength s.port.recSel.toNat ≤ s.port.fieldSel.toNat → s.registerByte 0x0A = 0xFF) ∧
    (s.registerByte 0x0B = s.time.now.extractLsb' 0 8 ∧ s.registerByte 0x0D ++ s.registerByte 0x0C = s.port.nowSnap) ∧
    (s.report.queue.length ≤ 16 → (s.registerByte 0x0E).toNat = s.report.queue.length) ∧
    (∀ k : Fin 8,
      ((s.registerByte 0x18).getLsbD k.val = (s.out ⟨k.val, by omega⟩).rest ∧
        (s.registerByte 0x19).getLsbD k.val = (s.out ⟨8 + k.val, by omega⟩).rest) ∧
      ((s.registerByte 0x1A).getLsbD k.val = (s.out ⟨k.val, by omega⟩).level ∧
        (s.registerByte 0x1B).getLsbD k.val = (s.out ⟨8 + k.val, by omega⟩).level) ∧
      ((s.registerByte 0x1C).getLsbD k.val = (s.out ⟨k.val, by omega⟩).enable ∧
        (s.registerByte 0x1D).getLsbD k.val = (s.out ⟨8 + k.val, by omega⟩).enable) ∧
      ((s.registerByte 0x1E).getLsbD k.val = (s.out ⟨k.val, by omega⟩).openDrain ∧
        (s.registerByte 0x1F).getLsbD k.val = (s.out ⟨8 + k.val, by omega⟩).openDrain)) ∧
    (s.report.queue = [] → ∀ k : Nat, k < 8 → s.registerByte (BitVec.ofNat 5 (0x10 + k)) = 0) ∧
    ∀ r rest, s.report.queue = r :: rest →
      ((s.registerByte 0x10).extractLsb' 0 4 = r.kind.code ∧ (s.registerByte 0x10).extractLsb' 4 3 = 0 ∧
        (s.registerByte 0x10).getLsbD 7 = r.gap) ∧
      s.registerByte 0x11 = r.subject ∧
      s.registerByte 0x14 ++ s.registerByte 0x13 ++ s.registerByte 0x12 = r.time ∧
      s.registerByte 0x16 ++ s.registerByte 0x15 = r.detail ∧ s.registerByte 0x17 = r.count

/-! ### The whole machine -/

/-- The host's own settings move by the host's writes and the resets alone: a line's enable and open-drain mode (R92), REC_SEL (R156),
the interrupt enables (R166). -/
def Obligations.HostSettingsMoveByHostWrites : Prop :=
  ∀ (c : Instr) (s t : State), c.wellFormed = true → exec c s = .next t → c ≠ .hardwareReset →
    (∀ levels, c ≠ .resetRelease levels) →
    ((∀ bank b, c ≠ .lineEnWrite bank b) → ∀ n : OutId, (t.out n).enable = (s.out n).enable) ∧
    ((∀ bank b, c ≠ .lineOdWrite bank b) → ∀ n : OutId, (t.out n).openDrain = (s.out n).openDrain) ∧
    ((∀ b, c ≠ .recSelWrite b) → t.port.recSel = s.port.recSel) ∧
    ((∀ b, c ≠ .irqEnableWrite b) → t.port.enables = s.port.enables)

/-- The machine right after reset meets every law of the collections and the units. -/
def Obligations.ResetMeetsEveryLaw : Prop :=
  Consistent State.reset ∧ TimeLaw State.reset.time ∧ (∀ n : InId, InputLaw (State.reset.inp n)) ∧
    WalkLaw State.reset.cmd ∧ Ordered State.reset.time.now State.reset.due ∧ HorizonLaw State.reset

/-- The laws of slots and collections (R1, R7, R9, R11, R41, R83, R84, R110, R118, R122) are kept by every step, from every state that
meets them and with any command at the front of the queue. -/
def Obligations.StepKeepsConsistent : Prop :=
  ∀ s t : State, Consistent s → step s = .next t → Consistent t

/-- The laws of the single units are kept by every step: the time base (R27, R28, R32, R33, R175), the input lines (R98, R100, R108) and
the walk items (R136). -/
def Obligations.StepKeepsUnitLaws : Prop :=
  ∀ s t : State, step s = .next t →
    (TimeLaw s.time → TimeLaw t.time) ∧
    ((∀ n : InId, InputLaw (s.inp n)) → ∀ n : InId, InputLaw (t.inp n)) ∧
    (WalkLaw s.cmd → WalkLaw t.cmd)

/-- The due list stays in the order of R43, and its entries near NOW (R45). Every command but an advance keeps the order, in every state.
And every step, advances included, keeps both the order and the bounds: no entry ever lies more than 4,194,303 ticks ahead, and the
reached test never turns back for one that is still in the list. How the model holds back an advance that would turn it back is log
entry 2. -/
def Obligations.DueListKeepsOrderAndHorizon : Prop :=
  (∀ (c : Instr) (s t : State), (∀ source, c ≠ .advance source) → Ordered s.time.now s.due → exec c s = .next t →
    Ordered t.time.now t.due) ∧
  ∀ s t : State, Consistent s → TimeLaw s.time → HorizonLaw s → Ordered s.time.now s.due → step s = .next t →
    HorizonLaw t ∧ Ordered t.time.now t.due ∧
      ∀ e ∈ s.due, e ∈ t.due → reached e.due s.time.now = true → reached e.due t.time.now = true

end
end

