-- ==== Sys2Proof/Laws/State.lean ====
section
/-! SUPPORT. The small lemmas of the accessors of State: what each setter changes and what it leaves, and the elementwise setters of the
vectors. -/

namespace Sys2Proof.Machine

/-! ### Fields that a setter leaves -/

@[simp] theorem State.setSlot_inReset (s : State) (i : SlotId) (x : Slot) : (s.setSlot i x).inReset = s.inReset := rfl
@[simp] theorem State.setSlot_pins (s : State) (i : SlotId) (x : Slot) : (s.setSlot i x).pins = s.pins := rfl
@[simp] theorem State.setSlot_busData (s : State) (i : SlotId) (x : Slot) : (s.setSlot i x).busData = s.busData := rfl
@[simp] theorem State.setSlot_time (s : State) (i : SlotId) (x : Slot) : (s.setSlot i x).time = s.time := rfl
@[simp] theorem State.setSlot_due (s : State) (i : SlotId) (x : Slot) : (s.setSlot i x).due = s.due := rfl
@[simp] theorem State.setSlot_outs (s : State) (i : SlotId) (x : Slot) : (s.setSlot i x).outs = s.outs := rfl
@[simp] theorem State.setSlot_ins (s : State) (i : SlotId) (x : Slot) : (s.setSlot i x).ins = s.ins := rfl
@[simp] theorem State.setSlot_report (s : State) (i : SlotId) (x : Slot) : (s.setSlot i x).report = s.report := rfl
@[simp] theorem State.setSlot_cmd (s : State) (i : SlotId) (x : Slot) : (s.setSlot i x).cmd = s.cmd := rfl
@[simp] theorem State.setSlot_port (s : State) (i : SlotId) (x : Slot) : (s.setSlot i x).port = s.port := rfl
@[simp] theorem State.setSlot_pending (s : State) (i : SlotId) (x : Slot) : (s.setSlot i x).pending = s.pending := rfl

@[simp] theorem State.setOut_inReset (s : State) (n : OutId) (x : OutLine) : (s.setOut n x).inReset = s.inReset := rfl
@[simp] theorem State.setOut_pins (s : State) (n : OutId) (x : OutLine) : (s.setOut n x).pins = s.pins := rfl
@[simp] theorem State.setOut_busData (s : State) (n : OutId) (x : OutLine) : (s.setOut n x).busData = s.busData := rfl
@[simp] theorem State.setOut_time (s : State) (n : OutId) (x : OutLine) : (s.setOut n x).time = s.time := rfl
@[simp] theorem State.setOut_slots (s : State) (n : OutId) (x : OutLine) : (s.setOut n x).slots = s.slots := rfl
@[simp] theorem State.setOut_due (s : State) (n : OutId) (x : OutLine) : (s.setOut n x).due = s.due := rfl
@[simp] theorem State.setOut_ins (s : State) (n : OutId) (x : OutLine) : (s.setOut n x).ins = s.ins := rfl
@[simp] theorem State.setOut_report (s : State) (n : OutId) (x : OutLine) : (s.setOut n x).report = s.report := rfl
@[simp] theorem State.setOut_cmd (s : State) (n : OutId) (x : OutLine) : (s.setOut n x).cmd = s.cmd := rfl
@[simp] theorem State.setOut_port (s : State) (n : OutId) (x : OutLine) : (s.setOut n x).port = s.port := rfl
@[simp] theorem State.setOut_pending (s : State) (n : OutId) (x : OutLine) : (s.setOut n x).pending = s.pending := rfl

@[simp] theorem State.setInp_inReset (s : State) (n : InId) (x : InLine) : (s.setInp n x).inReset = s.inReset := rfl
@[simp] theorem State.setInp_pins (s : State) (n : InId) (x : InLine) : (s.setInp n x).pins = s.pins := rfl
@[simp] theorem State.setInp_busData (s : State) (n : InId) (x : InLine) : (s.setInp n x).busData = s.busData := rfl
@[simp] theorem State.setInp_time (s : State) (n : InId) (x : InLine) : (s.setInp n x).time = s.time := rfl
@[simp] theorem State.setInp_slots (s : State) (n : InId) (x : InLine) : (s.setInp n x).slots = s.slots := rfl
@[simp] theorem State.setInp_due (s : State) (n : InId) (x : InLine) : (s.setInp n x).due = s.due := rfl
@[simp] theorem State.setInp_outs (s : State) (n : InId) (x : InLine) : (s.setInp n x).outs = s.outs := rfl
@[simp] theorem State.setInp_report (s : State) (n : InId) (x : InLine) : (s.setInp n x).report = s.report := rfl
@[simp] theorem State.setInp_cmd (s : State) (n : InId) (x : InLine) : (s.setInp n x).cmd = s.cmd := rfl
@[simp] theorem State.setInp_port (s : State) (n : InId) (x : InLine) : (s.setInp n x).port = s.port := rfl
@[simp] theorem State.setInp_pending (s : State) (n : InId) (x : InLine) : (s.setInp n x).pending = s.pending := rfl

@[simp] theorem State.setPin_inReset (s : State) (n : InId) (level : Bool) : (s.setPin n level).inReset = s.inReset := rfl
@[simp] theorem State.setPin_busData (s : State) (n : InId) (level : Bool) : (s.setPin n level).busData = s.busData := rfl
@[simp] theorem State.setPin_time (s : State) (n : InId) (level : Bool) : (s.setPin n level).time = s.time := rfl
@[simp] theorem State.setPin_slots (s : State) (n : InId) (level : Bool) : (s.setPin n level).slots = s.slots := rfl
@[simp] theorem State.setPin_due (s : State) (n : InId) (level : Bool) : (s.setPin n level).due = s.due := rfl
@[simp] theorem State.setPin_outs (s : State) (n : InId) (level : Bool) : (s.setPin n level).outs = s.outs := rfl
@[simp] theorem State.setPin_ins (s : State) (n : InId) (level : Bool) : (s.setPin n level).ins = s.ins := rfl
@[simp] theorem State.setPin_report (s : State) (n : InId) (level : Bool) : (s.setPin n level).report = s.report := rfl
@[simp] theorem State.setPin_cmd (s : State) (n : InId) (level : Bool) : (s.setPin n level).cmd = s.cmd := rfl
@[simp] theorem State.setPin_port (s : State) (n : InId) (level : Bool) : (s.setPin n level).port = s.port := rfl
@[simp] theorem State.setPin_pending (s : State) (n : InId) (level : Bool) : (s.setPin n level).pending = s.pending := rfl

/-! ### Elements -/

@[simp] theorem State.slot_setSlot_self (s : State) (i : SlotId) (x : Slot) : (s.setSlot i x).slot i = x := by
  simp [State.slot, State.setSlot]

theorem State.slot_setSlot_of_ne (s : State) {i j : SlotId} (x : Slot) (h : j ≠ i) : (s.setSlot i x).slot j = s.slot j := by
  have : (i : Nat) ≠ j := fun e => h (Fin.ext e.symm)
  simp [State.slot, State.setSlot, this]

theorem State.slot_setSlot (s : State) (i j : SlotId) (x : Slot) :
    (s.setSlot i x).slot j = if j = i then x else s.slot j := by
  split
  · next h => subst h; simp
  · next h => exact State.slot_setSlot_of_ne s x h

@[simp] theorem State.out_setOut_self (s : State) (n : OutId) (x : OutLine) : (s.setOut n x).out n = x := by
  simp [State.out, State.setOut]

theorem State.out_setOut_of_ne (s : State) {n m : OutId} (x : OutLine) (h : m ≠ n) : (s.setOut n x).out m = s.out m := by
  have : (n : Nat) ≠ m := fun e => h (Fin.ext e.symm)
  simp [State.out, State.setOut, this]

theorem State.out_setOut (s : State) (n m : OutId) (x : OutLine) :
    (s.setOut n x).out m = if m = n then x else s.out m := by
  split
  · next h => subst h; simp
  · next h => exact State.out_setOut_of_ne s x h

@[simp] theorem State.inp_setInp_self (s : State) (n : InId) (x : InLine) : (s.setInp n x).inp n = x := by
  simp [State.inp, State.setInp]

theorem State.inp_setInp_of_ne (s : State) {n m : InId} (x : InLine) (h : m ≠ n) : (s.setInp n x).inp m = s.inp m := by
  have : (n : Nat) ≠ m := fun e => h (Fin.ext e.symm)
  simp [State.inp, State.setInp, this]

theorem State.inp_setInp (s : State) (n m : InId) (x : InLine) :
    (s.setInp n x).inp m = if m = n then x else s.inp m := by
  split
  · next h => subst h; simp
  · next h => exact State.inp_setInp_of_ne s x h

@[simp] theorem State.pin_setPin_self (s : State) (n : InId) (level : Bool) : (s.setPin n level).pin n = level := by
  simp [State.pin, State.setPin]

/-- Writing the level that a pin already has changes nothing. -/
@[simp] theorem State.setPin_pin (s : State) (n : InId) : s.setPin n (s.pin n) = s := by
  simp [State.pin, State.setPin]

/-- The element accessors read one vector each. -/
theorem State.slot_congr {s t : State} (h : t.slots = s.slots) (i : SlotId) : t.slot i = s.slot i := by simp [State.slot, h]
theorem State.out_congr {s t : State} (h : t.outs = s.outs) (n : OutId) : t.out n = s.out n := by simp [State.out, h]
theorem State.inp_congr {s t : State} (h : t.ins = s.ins) (n : InId) : t.inp n = s.inp n := by simp [State.inp, h]

/-! ### Elements through the other setters -/

@[simp] theorem State.out_setSlot (s : State) (i : SlotId) (x : Slot) (k : OutId) : (s.setSlot i x).out k = s.out k := rfl
@[simp] theorem State.inp_setSlot (s : State) (i : SlotId) (x : Slot) (k : InId) : (s.setSlot i x).inp k = s.inp k := rfl
@[simp] theorem State.pin_setSlot (s : State) (i : SlotId) (x : Slot) (k : InId) : (s.setSlot i x).pin k = s.pin k := rfl
@[simp] theorem State.slot_setOut (s : State) (n : OutId) (x : OutLine) (k : SlotId) : (s.setOut n x).slot k = s.slot k := rfl
@[simp] theorem State.inp_setOut (s : State) (n : OutId) (x : OutLine) (k : InId) : (s.setOut n x).inp k = s.inp k := rfl
@[simp] theorem State.pin_setOut (s : State) (n : OutId) (x : OutLine) (k : InId) : (s.setOut n x).pin k = s.pin k := rfl
@[simp] theorem State.slot_setInp (s : State) (n : InId) (x : InLine) (k : SlotId) : (s.setInp n x).slot k = s.slot k := rfl
@[simp] theorem State.out_setInp (s : State) (n : InId) (x : InLine) (k : OutId) : (s.setInp n x).out k = s.out k := rfl
@[simp] theorem State.pin_setInp (s : State) (n : InId) (x : InLine) (k : InId) : (s.setInp n x).pin k = s.pin k := rfl
@[simp] theorem State.slot_setPin (s : State) (n : InId) (level : Bool) (k : SlotId) : (s.setPin n level).slot k = s.slot k := rfl
@[simp] theorem State.out_setPin (s : State) (n : InId) (level : Bool) (k : OutId) : (s.setPin n level).out k = s.out k := rfl
@[simp] theorem State.inp_setPin (s : State) (n : InId) (level : Bool) (k : InId) : (s.setPin n level).inp k = s.inp k := rfl

/-! ### A state outside hardware reset takes its events -/

@[simp] theorem State.whenOn_of_on {s : State} (h : s.inReset = false) (event : State → State) : s.whenOn event = event s := by
  simp [State.whenOn, h]

@[simp] theorem State.whenOn_of_reset {s : State} (h : s.inReset = true) (event : State → State) : s.whenOn event = s := by
  simp [State.whenOn, h]

/-! ### Extensionality -/

/-- Two states that agree in every field are equal. -/
theorem State.ext_fields {s t : State} (h₁ : s.inReset = t.inReset) (h₂ : s.pins = t.pins) (h₃ : s.busData = t.busData)
    (h₄ : s.time = t.time) (h₅ : s.slots = t.slots) (h₆ : s.due = t.due) (h₇ : s.outs = t.outs) (h₈ : s.ins = t.ins)
    (h₉ : s.report = t.report) (h₁₀ : s.cmd = t.cmd) (h₁₁ : s.port = t.port) (h₁₂ : s.pending = t.pending) : s = t := by
  cases s; cases t; simp_all

/-- Two writes of one slot are the later one. -/
@[simp] theorem State.setSlot_setSlot (s : State) (i : SlotId) (x y : Slot) : (s.setSlot i x).setSlot i y = s.setSlot i y := by
  simp [State.setSlot]

/-- Two writes of one input line are the later one. -/
@[simp] theorem State.setInp_setInp (s : State) (n : InId) (x y : InLine) : (s.setInp n x).setInp n y = s.setInp n y := by
  simp [State.setInp]

/-- Writing back the slot that stands there changes nothing. -/
@[simp] theorem State.setSlot_slot (s : State) (i : SlotId) : s.setSlot i (s.slot i) = s := by
  simp [State.setSlot, State.slot]

end Sys2Proof.Machine
end

