-- ==== Sys2Proof/Laws/Reports.lean ====
section
/-! SUPPORT. The report unit's operations: each equals the rule written out in Safety, with what it leaves unchanged. -/

namespace Sys2Proof.Machine

theorem ReportUnit.full_iff (u : ReportUnit) : u.full = true ↔ 16 ≤ u.queue.length := decide_eq_true_iff

theorem ReportUnit.full_eq_false_iff (u : ReportUnit) : u.full = false ↔ u.queue.length < 16 :=
  decide_eq_false_iff_not.trans Nat.not_le

/-- Storing a record (R119, R120). -/
theorem ReportUnit.store_eq (u : ReportUnit) (r : Record) : u.store r = storedAtTail u r := rfl

/-- A non-final record is stored or dropped (R119). -/
theorem State.giveRecord_eq (s : State) (r : Record) : s.giveRecord r = recorded s r := by
  unfold State.giveRecord recorded
  by_cases h : s.report.queue.length < 16
  · simp [h, (ReportUnit.full_eq_false_iff _).2 h, ReportUnit.store_eq]
  · simp [h, (ReportUnit.full_iff s.report).2 (by omega)]

/-! ### What a non-final record leaves -/

section
variable (s : State) (r : Record)
@[simp] theorem recorded_inReset : (recorded s r).inReset = s.inReset := by unfold recorded; split <;> rfl
@[simp] theorem recorded_pins : (recorded s r).pins = s.pins := by unfold recorded; split <;> rfl
@[simp] theorem recorded_busData : (recorded s r).busData = s.busData := by unfold recorded; split <;> rfl
@[simp] theorem recorded_time : (recorded s r).time = s.time := by unfold recorded; split <;> rfl
@[simp] theorem recorded_slots : (recorded s r).slots = s.slots := by unfold recorded; split <;> rfl
@[simp] theorem recorded_due : (recorded s r).due = s.due := by unfold recorded; split <;> rfl
@[simp] theorem recorded_outs : (recorded s r).outs = s.outs := by unfold recorded; split <;> rfl
@[simp] theorem recorded_ins : (recorded s r).ins = s.ins := by unfold recorded; split <;> rfl
@[simp] theorem recorded_cmd : (recorded s r).cmd = s.cmd := by unfold recorded; split <;> rfl
@[simp] theorem recorded_pending : (recorded s r).pending = s.pending := by unfold recorded; split <;> rfl
@[simp] theorem recorded_slot (i : SlotId) : (recorded s r).slot i = s.slot i := State.slot_congr (by simp) i
@[simp] theorem recorded_out (n : OutId) : (recorded s r).out n = s.out n := State.out_congr (by simp) n
@[simp] theorem recorded_inp (n : InId) : (recorded s r).inp n = s.inp n := State.inp_congr (by simp) n
@[simp] theorem recorded_pin (n : InId) : (recorded s r).pin n = s.pin n := by simp [State.pin]
@[simp] theorem recorded_retire : (recorded s r).report.retire = s.report.retire := by unfold recorded; split <;> rfl
@[simp] theorem recorded_threshold : (recorded s r).report.threshold = s.report.threshold := by unfold recorded; split <;> rfl
end

/-- What the host port keeps of a non-final record: everything but OVR. -/
theorem recorded_port (s : State) (r : Record) :
    (recorded s r).port = s.port ∨ (recorded s r).port = { s.port with flags := { s.port.flags with ovr := true } } := by
  unfold recorded; split
  · exact .inl rfl
  · exact .inr rfl

/-- The queue stays within 16 records (R118). -/
theorem recorded_queue_length_le (s : State) (r : Record) (h : s.report.queue.length ≤ 16) :
    (recorded s r).report.queue.length ≤ 16 := by
  unfold recorded; split
  · simp [storedAtTail]; omega
  · exact h

/-- A full queue stays as it is: the record is dropped (R119, R122). -/
theorem recorded_queue_of_full (s : State) (r : Record) (h : s.report.queue.length = 16) :
    (recorded s r).report.queue = s.report.queue := by
  simp [recorded, h]

/-- The record of a held record (R116, R126). -/
theorem HeldRecord.record_eq (h : HeldRecord) (i : SlotId) : h.record i = storedFinal h i := by
  cases h with | mk k _ _ _ => cases k <;> rfl

/-- A final record by the slot's REPORT and the queue count (R121). -/
theorem State.giveFinal_eq (s : State) (i : SlotId) (kind : FinalKind) (late : Half) :
    s.giveFinal i kind late =
      if (s.slot i).prog.report = .none then (s, true)
      else if s.report.queue.length < 16 then
        ({ s with report := storedAtTail s.report (storedFinal (finalNow s i kind late) i) }, true)
      else (retired s i (kind == .cancelled) (finalNow s i kind late), false) := by
  unfold State.giveFinal
  by_cases hr : (s.slot i).prog.report = .none
  · simp [hr, Program.reportsFinal]
  · by_cases h : s.report.queue.length < 16
    · simp [hr, h, Program.reportsFinal, (ReportUnit.full_eq_false_iff _).2 h, HeldRecord.record_eq, ReportUnit.store_eq,
        State.finalRecord, finalNow]
    · simp [hr, h, Program.reportsFinal, (ReportUnit.full_iff s.report).2 (by omega), State.finalRecord, finalNow, retired]

end Sys2Proof.Machine
end

