-- ==== Sys2Proof/Laws/Launches.lean ====
section
/-! SUPPORT. Launches, settling, the finish and the end of an occurrence: each operation equals the rule written out in Safety. -/

namespace Sys2Proof.Machine

/-! ### Examinations and deadline checks -/

/-- What an examination and its checks still have to take (R46, R48, R103). -/
theorem State.followUpOwed_eq (s : State) : s.followUpOwed = followUpWaits s := by
  have hc : s.checkReached = fun n : InId =>
      s.time.state != .stopped && (s.inp n).deadline.any fun d => reached d s.time.now := by
    funext n
    unfold State.checkReached
    cases (s.inp n).deadline <;> rfl
  unfold State.followUpOwed followUpWaits State.dueHead
  rw [hc]
  by_cases h : s.time.state = .stopped
  · simp [h]
  · have hs : (s.time.state != .stopped) = true := by simpa using h
    cases hd : s.due with
    | nil => simp [h, hs]
    | cons e rest => cases hr : reached e.due s.time.now <;> simp [h, hs, hr]

/-- The mark of an examination (log entry 30). -/
theorem State.noteExamination_eq (s : State) : s.noteExamination = examNoted s := by
  unfold State.noteExamination examNoted State.examining
  rw [State.followUpOwed_eq]

section
variable (s : State)
@[simp] theorem examNoted_inReset : (examNoted s).inReset = s.inReset := rfl
@[simp] theorem examNoted_pins : (examNoted s).pins = s.pins := rfl
@[simp] theorem examNoted_busData : (examNoted s).busData = s.busData := rfl
@[simp] theorem examNoted_slots : (examNoted s).slots = s.slots := rfl
@[simp] theorem examNoted_due : (examNoted s).due = s.due := rfl
@[simp] theorem examNoted_outs : (examNoted s).outs = s.outs := rfl
@[simp] theorem examNoted_ins : (examNoted s).ins = s.ins := rfl
@[simp] theorem examNoted_report : (examNoted s).report = s.report := rfl
@[simp] theorem examNoted_cmd : (examNoted s).cmd = s.cmd := rfl
@[simp] theorem examNoted_port : (examNoted s).port = s.port := rfl
@[simp] theorem examNoted_pending : (examNoted s).pending = s.pending := rfl
@[simp] theorem examNoted_now : (examNoted s).time.now = s.time.now := rfl
@[simp] theorem examNoted_timeState : (examNoted s).time.state = s.time.state := rfl
@[simp] theorem examNoted_heldAdvances : (examNoted s).time.heldAdvances = s.time.heldAdvances := rfl
@[simp] theorem examNoted_slot (i : SlotId) : (examNoted s).slot i = s.slot i := rfl
@[simp] theorem examNoted_out (n : OutId) : (examNoted s).out n = s.out n := rfl
@[simp] theorem examNoted_inp (n : InId) : (examNoted s).inp n = s.inp n := rfl
@[simp] theorem examNoted_pin (n : InId) : (examNoted s).pin n = s.pin n := rfl
end

/-- What waits does not depend on slots, output lines or records (R46, R103). -/
@[simp] theorem followUpWaits_setSlot (s : State) (i : SlotId) (x : Slot) : followUpWaits (s.setSlot i x) = followUpWaits s := rfl

/-! ### Runs and launches -/

/-- A new run (R70, R65). -/
theorem State.beginRun_eq (s : State) (i : SlotId) (time : Tick) (chain : Bool) :
    s.beginRun i time chain = runBegun s i time (firstDue (s.slot i).prog.delay time chain) (s.slot i).pendingMark := rfl

/-- A new run's slot (R70). -/
theorem runBegun_slot (s : State) (i j : SlotId) (time due : Tick) (pending : Bool) :
    (runBegun s i time due pending).slot j = if j = i then
      { s.slot i with state := .waiting, occurrences := 0, launchTime := time, pendingMark := pending } else s.slot j :=
  State.slot_setSlot s i j _

/-- The entry and the claim of a run that stops (R18 step 1, R72 steps 1 and 2). -/
theorem State.stopRun_eq (s : State) (i : SlotId) : s.stopRun i = runAbandoned s i := by
  unfold State.stopRun runAbandoned
  by_cases h : (s.slot i).state = .driving
  · simp only [h, beq_self_eq_true, if_true]; rfl
  · simp [h, State.removeDue]

@[simp] theorem runAbandoned_slot (s : State) (i j : SlotId) : (runAbandoned s i).slot j = s.slot j := by
  unfold runAbandoned; dsimp only; split <;> rfl

/-- The due time of a launch's first entry (R65). -/
theorem launchDue_eq (p : Program) (l : Launch) : launchDue p l = firstDue p.delay l.time (l.kind == .chain) := by
  unfold launchDue firstDue
  by_cases hk : l.kind = .chain <;> by_cases hd : p.delay = 0#24 <;> simp [hk, hd]

/-- The LAUNCH_IGNORED record under EVERY (R75). -/
theorem State.ignoreLaunch_eq (s : State) (l : Launch) :
    s.ignoreLaunch l = if (s.slot l.target).prog.report = .every then recorded s (ignoredRecord s l) else s := by
  unfold State.ignoreLaunch
  by_cases h : (s.slot l.target).prog.report = .every <;>
    simp [h, Program.reportsEvery, State.giveRecord_eq, ignoredRecord, slotByte, detailBytes]

/-- Every launch is taken by the table of section 4.2 (R69 to R75). -/
theorem State.launch_eq (s : State) (l : Launch) : s.launch l = (launched s l, outcomeOf s l) := by
  unfold State.launch launched outcomeOf tableOutcome
  cases hs : (s.slot l.target).state <;> cases hp : (s.slot l.target).prog.policy <;>
    simp only [State.launchRunning, State.launchRetiring, hp, State.ignoreLaunch_eq, State.markPending, State.entryReached,
      State.beginRun_eq, launchDue_eq, State.stopRun_eq, runAbandoned_slot] <;>
    repeat' split
  all_goals first
    | rfl
    | simp_all

/-! ### What a launch leaves -/

section
variable (s : State) (l : Launch)
@[simp] theorem launched_ins : (launched s l).ins = s.ins := by
  unfold launched runBegun runAbandoned; dsimp only; repeat' split
  all_goals simp
@[simp] theorem launched_time : (launched s l).time = s.time := by
  unfold launched runBegun runAbandoned; dsimp only; repeat' split
  all_goals simp
@[simp] theorem launched_cmd : (launched s l).cmd = s.cmd := by
  unfold launched runBegun runAbandoned; dsimp only; repeat' split
  all_goals simp
@[simp] theorem launched_pins : (launched s l).pins = s.pins := by
  unfold launched runBegun runAbandoned; dsimp only; repeat' split
  all_goals simp
@[simp] theorem launched_inReset : (launched s l).inReset = s.inReset := by
  unfold launched runBegun runAbandoned; dsimp only; repeat' split
  all_goals simp
@[simp] theorem launched_pending : (launched s l).pending = s.pending := by
  unfold launched runBegun runAbandoned; dsimp only; repeat' split
  all_goals simp
@[simp] theorem launched_retire : (launched s l).report.retire = s.report.retire := by
  unfold launched runBegun runAbandoned; dsimp only; repeat' split
  all_goals simp
end

@[simp] theorem launched_inp (s : State) (l : Launch) (n : InId) : (launched s l).inp n = s.inp n := State.inp_congr (by simp) n

/-- A launch touches no slot but its target (R64). -/
theorem launched_slot_of_ne (s : State) (l : Launch) {j : SlotId} (h : j ≠ l.target) : (launched s l).slot j = s.slot j := by
  have key : ∀ (t : State) (x : Slot), (∀ k, t.slot k = s.slot k) → (t.setSlot l.target x).slot j = s.slot j := fun t x e => by
    rw [State.slot_setSlot_of_ne t x h, e j]
  unfold launched; dsimp only
  split
  · exact key s _ fun _ => rfl
  · exact key (runAbandoned s l.target) _ fun k => runAbandoned_slot s _ k
  · exact key s _ fun _ => rfl
  · split
    · simp
    · rfl
  · rfl

/-- A launch leaves the target's programmed fields (R12). -/
theorem launched_prog (s : State) (l : Launch) (j : SlotId) : ((launched s l).slot j).prog = (s.slot j).prog := by
  by_cases h : j = l.target
  · subst h
    unfold launched; dsimp only
    split
    · simp [runBegun_slot]
    · simp [runBegun_slot]
    · simp
    · split <;> simp
    · rfl
  · rw [launched_slot_of_ne s l h]

/-! ### Settling and the finish -/

/-- Settling without the disarm mark (R20 step 2, R21). -/
theorem State.settle_eq (s : State) (i : SlotId) : s.settle i = settled s i := by
  unfold State.settle settled
  by_cases h : (s.slot i).pendingMark = true
  · simp [h, State.beginRun_eq, runBegun, firstDue]
  · by_cases ho : (s.slot i).prog.launch = .once <;> simp [h, ho]

/-- A chain launch and its LAUNCH_LOST record (R76, R77). -/
theorem State.chainLaunch_eq (s : State) (source target : SlotId) : s.chainLaunch source target = chained s source target := by
  unfold State.chainLaunch chained
  simp only [State.launch_eq, State.giveRecord_eq, slotByte]
  by_cases h : outcomeOf s ⟨target, .chain, BitVec.ofNat 8 source.val, s.time.now⟩ = .lost
  · by_cases hr : (s.slot source).prog.report = .none
    · simp [h, hr, Program.reportsFinal]
    · simp [h, hr, Program.reportsFinal, launched, lostRecord, detailBytes, SourceKind.code]
  · simp [h]

/-- A finish (R20). -/
theorem State.finish_eq (s : State) (i : SlotId) (late : Half) : s.finish i late = finishedAndChained s i late := by
  have step12 : (let (s₁, settles) := s.giveFinal i .done late; if settles then s₁.settle i else s₁) = finished s i late := by
    rw [State.giveFinal_eq]
    unfold finished
    by_cases hr : (s.slot i).prog.report = .none
    · simp [hr, State.settle_eq]
    · by_cases hq : s.report.queue.length < 16
      · simp [hr, hq, State.settle_eq]
      · simp only [hr, hq, if_false]; rfl
  unfold State.finish finishedAndChained nextSlot
  dsimp only at step12 ⊢
  rw [step12]
  by_cases h : (s.slot i).prog.next.toNat < 32 <;> simp [h, State.chainLaunch_eq]

/-- A retiring slot released (R21, R124, R127). -/
theorem State.releaseRetiring_eq (s : State) (i : SlotId) (h : HeldRecord) (hh : (s.slot i).held = some h) :
    s.releaseRetiring i = released s i h := by
  unfold State.releaseRetiring released State.retireCompletion
  simp only [hh, HeldRecord.record_eq, ReportUnit.store_eq, State.settle_eq, State.noteExamination_eq]
  by_cases hd : (s.slot i).disarmMark = true
  · have hn : ¬ ((s.slot i).pendingMark = true ∧ (s.slot i).disarmMark = false) := fun e => by simp [hd] at e
    rw [if_neg hn]
    exact (if_pos hd).trans (Eq.trans (by simp [State.slot, State.setSlot]) (if_pos hd).symm)
  · by_cases hp : (s.slot i).pendingMark = true
    · have hn : (s.slot i).pendingMark = true ∧ (s.slot i).disarmMark = false := ⟨hp, Bool.eq_false_iff.2 hd⟩
      rw [if_pos hn]
      refine (if_neg hd).trans (Eq.trans ?_ (if_neg hd).symm)
      exact congrArg (fun v : State => settled (v.setSlot i { s.slot i with held := none }) i) (if_pos hp)
    · have hn : ¬ ((s.slot i).pendingMark = true ∧ (s.slot i).disarmMark = false) := fun e => hp e.1
      rw [if_neg hn]
      refine (if_neg hd).trans (Eq.trans ?_ (if_neg hd).symm)
      exact congrArg (fun v : State => settled (v.setSlot i { s.slot i with held := none }) i) (if_neg hp)

/-! ### The end of an occurrence -/

/-- A wake request (R36). -/
theorem State.wakeRequest_eq (s : State) : s.wakeRequest = woken s := by
  unfold State.wakeRequest woken TimeBase.inDoze TimeBase.leaveDoze dozeLeft
  cases s.time.state <;> simp

/-- An occurrence that does not drive (R57, R58, R59). -/
theorem State.endOccurrence_eq (s : State) (i : SlotId) (kind : RecordKind) (late : Half) :
    s.endOccurrence i kind late = occurrenceOver s i kind late := by
  have hrep : (s.slot i).prog.reportsOccurrence kind = reportsOccurrence (s.slot i).prog kind := by
    cases kind <;> simp [Program.reportsOccurrence, reportsOccurrence, Program.reportsEvery, Program.reportsFinal] <;> rfl
  unfold State.endOccurrence occurrenceOver State.decideCourse State.nextStart Slot.goesOn State.insertDue
  simp only [State.slot_setSlot_self, hrep, State.giveRecord_eq, State.finish_eq]
  by_cases hr : reportsOccurrence (s.slot i).prog kind = true <;> simp [hr, State.occurrenceRecord, occurrenceRecordOf, slotByte]

/-- A launch at a slot that is FREE or HELD is LOST (R69). -/
theorem outcomeOf_of_unarmed {s : State} {l : Launch} (h : (s.slot l.target).state = .free ∨ (s.slot l.target).state = .held) :
    outcomeOf s l = .lost := by
  unfold outcomeOf tableOutcome
  rcases h with h | h <;> rw [h]

end Sys2Proof.Machine
end

