-- ==== Sys2Proof/Laws/Inputs.lean ====
section
/-! SUPPORT. The input unit's operations: edges, deliveries and their completion equal the rules written out in Safety; the comparison
with the pin is a RAW_CHANGE to the pin's present level. -/

namespace Sys2Proof.Machine

theorem Sense.isMatch_iff (sense : Sense) (level : Bool) : sense.isMatch level = true ↔ matchesSense sense level := by
  cases sense <;> cases level <;> simp [Sense.isMatch, matchesSense]

/-- Some line delivers (R106). -/
theorem State.delivering_eq_false_iff (s : State) : s.delivering = false ↔ NoDelivery s := by
  unfold State.delivering NoDelivery State.inp
  simp only [List.any_eq_false, Vector.mem_toList_iff]
  constructor
  · intro h n
    have := h s.ins[n] (Vector.getElem_mem _)
    simpa using this
  · intro h l hl
    obtain ⟨k, hk, rfl⟩ := Vector.getElem_of_mem hl
    have := h ⟨k, hk⟩
    simpa using this

/-- Steps 1 and 2 of a completion (R107). -/
theorem State.closeDelivery_eq (s : State) (n : InId) : s.closeDelivery n = deliveryClosed s n := by
  unfold State.closeDelivery deliveryClosed
  cases h : (s.inp n).delivery with
  | none => rfl
  | some d =>
    have hr : d.record n s.time.now = edgeRecord n s.time.now d.level d.delivered d.events := by
      cases hl : d.level <;> simp [Delivery.record, edgeRecord, detailBytes, boolByte, hl]
    simp only [State.giveRecord_eq, hr]

theorem InLine.deliveryEmpty_of_none {l : InLine} (h : l.delivery = none) : l.deliveryEmpty = false := by
  simp [InLine.deliveryEmpty, h]

theorem InLine.deliveryEmpty_of_some {l : InLine} {d : Delivery} (h : l.delivery = some d) :
    l.deliveryEmpty = d.slots.isEmpty := by
  simp [InLine.deliveryEmpty, h]

/-- An edge (R105). -/
theorem State.edge_eq (s : State) (n : InId) (h : matchesSense (s.inp n).sense (s.inp n).qualified) :
    s.qualifiedChange n = edgeTaken s n := by
  unfold State.qualifiedChange
  rw [if_pos ((Sense.isMatch_iff _ _).2 h)]
  unfold edgeTaken State.takeEdge
  simp only [State.wakeRequest_eq, State.closeDelivery_eq, State.inp_setInp_self]
  rw [InLine.deliveryEmpty_of_some rfl]
  by_cases hb : (s.inp n).binding = [] <;> simp [hb]

/-- A qualified change that does not match changes nothing more (R105). -/
theorem State.noEdge_eq (s : State) (n : InId) (h : ¬ matchesSense (s.inp n).sense (s.inp n).qualified) :
    s.qualifiedChange n = s := by
  unfold State.qualifiedChange
  rw [if_neg fun e => h ((Sense.isMatch_iff _ _).1 e)]

/-- The comparison with the pin is a RAW_CHANGE to the level that the pin already has (R100, R107 step 3). -/
theorem State.comparePin_eq (s : State) (n : InId) (h : s.inReset = false) : s.pinChange n (s.pin n) = s.comparePin n := by
  simp [State.pinChange, h]

/-! ### What the input unit leaves -/

section
variable (s : State) (n : InId)
@[simp] theorem woken_slots : (woken s).slots = s.slots := by unfold woken; split <;> rfl
@[simp] theorem woken_ins : (woken s).ins = s.ins := by unfold woken; split <;> rfl
@[simp] theorem woken_pins : (woken s).pins = s.pins := by unfold woken; split <;> rfl
@[simp] theorem woken_outs : (woken s).outs = s.outs := by unfold woken; split <;> rfl
@[simp] theorem woken_due : (woken s).due = s.due := by unfold woken; split <;> rfl
@[simp] theorem woken_report : (woken s).report = s.report := by unfold woken; split <;> rfl
@[simp] theorem woken_cmd : (woken s).cmd = s.cmd := by unfold woken; split <;> rfl
@[simp] theorem woken_inReset : (woken s).inReset = s.inReset := by unfold woken; split <;> rfl
@[simp] theorem woken_pending : (woken s).pending = s.pending := by unfold woken; split <;> rfl
@[simp] theorem dozeLeft_now (t : TimeBase) : (dozeLeft t).now = t.now := by unfold dozeLeft; split <;> rfl
@[simp] theorem woken_now : (woken s).time.now = s.time.now := by unfold woken; split <;> simp
@[simp] theorem deliveryClosed_slots : (deliveryClosed s n).slots = s.slots := by
  unfold deliveryClosed; split
  · rfl
  · dsimp only; split <;> simp
@[simp] theorem deliveryClosed_pins : (deliveryClosed s n).pins = s.pins := by
  unfold deliveryClosed; split
  · rfl
  · dsimp only; split <;> simp
@[simp] theorem deliveryClosed_inReset : (deliveryClosed s n).inReset = s.inReset := by
  unfold deliveryClosed; split
  · rfl
  · dsimp only; split <;> simp
@[simp] theorem edgeTaken_slots : (edgeTaken s n).slots = s.slots := by
  unfold edgeTaken; dsimp only; split <;> split <;> simp
@[simp] theorem edgeTaken_pins : (edgeTaken s n).pins = s.pins := by
  unfold edgeTaken; dsimp only; split <;> split <;> simp
@[simp] theorem edgeTaken_inReset : (edgeTaken s n).inReset = s.inReset := by
  unfold edgeTaken; dsimp only; split <;> split <;> simp
end

/-- A slot that leaves its binding list and the line's delivery (R111). -/
theorem State.leaveBinding_eq (s : State) (i : SlotId) : s.leaveBinding i =
    let n := (s.slot i).prog.source
    (s.setInp n { s.inp n with
      binding := (s.inp n).binding.filter fun j => j != i
      delivery := (s.inp n).delivery.map fun d => { d with slots := d.slots.filter fun j => j != i } }).completeIfEmpty n := rfl

/-- A completion: record, discard, comparison with the pin (R107). -/
theorem State.completeIfEmpty_of_empty (s : State) (n : InId) (d : Delivery) (h : (s.inp n).delivery = some d) (hd : d.slots = []) :
    s.completeIfEmpty n = (deliveryClosed s n).comparePin n := by
  unfold State.completeIfEmpty
  rw [InLine.deliveryEmpty_of_some h, hd, State.closeDelivery_eq]; rfl

/-- A delivery with slots left goes on (R106). -/
theorem State.completeIfEmpty_of_left (s : State) (n : InId) (d : Delivery) (h : (s.inp n).delivery = some d) (hd : d.slots ≠ []) :
    s.completeIfEmpty n = s := by
  unfold State.completeIfEmpty
  rw [InLine.deliveryEmpty_of_some h]
  simp [hd]

/-- A line without a delivery has none to complete. -/
theorem State.completeIfEmpty_of_none (s : State) (n : InId) (h : (s.inp n).delivery = none) : s.completeIfEmpty n = s := by
  unfold State.completeIfEmpty
  rw [InLine.deliveryEmpty_of_none h]; rfl

/-- A slot whose line has no delivery leaves the binding list alone (R111). -/
theorem State.leaveBinding_of_none {s : State} {i : SlotId} (h : (s.inp (s.slot i).prog.source).delivery = none) :
    s.leaveBinding i =
      let n := (s.slot i).prog.source
      s.setInp n { s.inp n with binding := (s.inp n).binding.filter fun j => j != i } := by
  rw [State.leaveBinding_eq]
  dsimp only
  rw [State.completeIfEmpty_of_none _ _ (by simp [h])]
  congr 1
  simp [h]

/-- A slot that leaves a delivery in which others remain (R111). -/
theorem State.leaveBinding_of_left {s : State} {i : SlotId} {d : Delivery}
    (h : (s.inp (s.slot i).prog.source).delivery = some d) (hd : (d.slots.filter fun j => j != i) ≠ []) :
    s.leaveBinding i =
      let n := (s.slot i).prog.source
      s.setInp n { s.inp n with
        binding := (s.inp n).binding.filter fun j => j != i
        delivery := some { d with slots := d.slots.filter fun j => j != i } } := by
  rw [State.leaveBinding_eq]
  dsimp only
  rw [State.completeIfEmpty_of_left _ _ { d with slots := d.slots.filter fun j => j != i } (by simp [h]) hd]
  congr 1
  simp [h]

/-- A slot that leaves a delivery empty: the delivery closes and the pin is compared (R111, R107). -/
theorem State.leaveBinding_of_empty {s : State} {i : SlotId} {d : Delivery}
    (h : (s.inp (s.slot i).prog.source).delivery = some d) (hd : (d.slots.filter fun j => j != i) = []) :
    s.leaveBinding i =
      let n := (s.slot i).prog.source
      (deliveryClosed (s.setInp n { s.inp n with
        binding := (s.inp n).binding.filter fun j => j != i
        delivery := some { d with slots := d.slots.filter fun j => j != i } }) n).comparePin n := by
  rw [State.leaveBinding_eq]
  dsimp only
  rw [State.completeIfEmpty_of_empty _ _ { d with slots := d.slots.filter fun j => j != i } (by simp [h]) hd]
  congr 2
  congr 1
  simp [h]

end Sys2Proof.Machine
end

