-- ==== Sys2Proof/Laws/Commands.lean ====
section
/-! SUPPORT. The command unit: the arrival of a COMMAND write, its completion, and the effects of the slot commands, each as the rule
written out in Safety. -/

namespace Sys2Proof.Machine

/-- The outcome of a command (R140). -/
theorem State.complete_eq (s : State) (result : ResultCode) (value : Byte) : s.complete result value = withResult s result.code value :=
  rfl

/-- The outcome that an owning block's answer gives (R140). -/
theorem Answer.complete_eq (a : Answer) : a.complete = withResult a.state a.result.code a.value := rfl

/-- A COMMAND write by the command state (R138, R139). -/
theorem State.commandWrite_of_busy {s : State} (h : s.cmd.busy = true) (code : Byte) :
    s.commandWrite code = { s with port.flags.crf := true } := by
  simp [State.commandWrite, h]

theorem State.commandWrite_of_idle {s : State} (h : s.cmd.busy = false) (code : Byte) : s.commandWrite code = s.takeCommand code := by
  simp [State.commandWrite, h]

/-- The slot that CMD_ARG names (R138). -/
theorem CommandUnit.slotArg_of_argIs {s : State} {i : SlotId} (h : ArgIs s i) : s.cmd.slotArg = some i := by
  have hi : (BitVec.ofNat 8 i.val).toNat = i.val := by
    rw [BitVec.toNat_ofNat]; have := i.isLt; omega
  unfold CommandUnit.slotArg
  rw [dif_pos (by rw [h, hi]; exact i.isLt)]
  exact congrArg some (Fin.ext ((congrArg BitVec.toNat h).trans hi))

theorem CommandUnit.slotArg_of_large {c : CommandUnit} (h : 0x20 ≤ c.arg.toNat) : c.slotArg = none := by
  unfold CommandUnit.slotArg; rw [dif_neg (by omega)]

/-- A slot command reaches the slot that CMD_ARG names (R138, R141). -/
theorem State.slotCommand_of_argIs {s : State} {i : SlotId} (h : ArgIs s i) (effect : State → SlotId → Answer) :
    s.slotCommand effect = withResult (effect s i).state (effect s i).result.code (effect s i).value := by
  unfold State.slotCommand; rw [CommandUnit.slotArg_of_argIs h]; rfl

/-- An argument that names no slot is BAD_ARG (R138). -/
theorem State.slotCommand_of_large {s : State} (h : 0x20 ≤ s.cmd.arg.toNat) (effect : State → SlotId → Answer) :
    s.slotCommand effect = withResult s 0x02 0 := by
  unfold State.slotCommand; rw [CommandUnit.slotArg_of_large h]; rfl

/-- The lowest-numbered FREE slot (R13). -/
theorem State.lowestFree_eq_some {s : State} {i : SlotId} (h : (s.slot i).state = .free)
    (hl : ∀ j : SlotId, j < i → (s.slot j).state ≠ .free) : s.lowestFree = some i := by
  unfold State.lowestFree
  rw [List.find?_eq_some_iff_getElem]
  refine ⟨by simp [h], i.val, by simp, by simp, fun j hj => ?_⟩
  have := hl ⟨j, by have := i.isLt; omega⟩ hj
  simpa using this

theorem State.lowestFree_eq_none {s : State} (h : ∀ i : SlotId, (s.slot i).state ≠ .free) : s.lowestFree = none := by
  unfold State.lowestFree
  rw [List.find?_eq_none]
  intro i _
  simpa using h i

/-- The first failing row of a table of checks. -/
theorem firstFailure_cons (b : Bool) (v : Byte) (rows : List (Bool × Byte)) :
    ((b, v) :: rows).findSome? (fun row => if row.1 then some row.2 else none) =
      if b = true then some v else rows.findSome? fun row => if row.1 then some row.2 else none := by
  cases b <;> rfl

/-- ARM's checks are the rows of R16's table, in their order. -/
theorem Program.armCheck_eq (p : Program) : p.armCheck = (armChecks p).findSome? fun row => if row.1 then some row.2 else none := by
  have h10 : (p.period == 0 && decide (1 < p.count.toNat)) = (p.period == 0 && !(p.count == 0 || p.count == 1)) := by
    congr 1
    have : ∀ c : Byte, decide (1 < c.toNat) = !(c == 0 || c == 1) := by decide
    exact this p.count
  have h11 : (decide (32 ≤ p.next.toNat) && p.next != 0xFF) = decide (0x20 ≤ p.next.toNat ∧ p.next.toNat ≤ 0xFE) := by
    have : ∀ c : Byte, (decide (32 ≤ c.toNat) && c != 0xFF) = decide (0x20 ≤ c.toNat ∧ c.toNat ≤ 0xFE) := by decide
    exact this p.next
  have h9 : (p.kind == .pulse && p.period != 0 && decide (p.period.toNat ≤ p.width.toNat)) =
      (p.kind == .pulse && p.period != 0 && !decide (p.width.toNat < p.period.toNat)) := by
    congr 1
    rw [← decide_not]
    exact decide_eq_decide.2 (by omega)
  unfold Program.armCheck armChecks
  simp only [firstFailure_cons, List.findSome?_nil, h9, h10, h11, Program.badValue, Config.longestDelay, decide_eq_true_eq]

/-- Fields that pass every row of R16's table pass ARM. -/
theorem Program.armCheck_of_passes {p : Program} (h : PassesArm p) : p.armCheck = none := by
  rw [Program.armCheck_eq, List.findSome?_eq_none_iff]
  intro row hr
  have := List.any_eq_false.1 h row hr
  simp [this]

/-- The end of a cancel: the CANCELLED record, HELD or RETIRING (R18 steps 4 and 5). -/
theorem cancelledRecord_eq (s : State) (i : SlotId) :
    (let (u, settles) := s.giveFinal i .cancelled 0; if settles then u.setSlot i { u.slot i with state := .held } else u) =
      cancelledRecord s i := by
  rw [State.giveFinal_eq]
  unfold cancelledRecord
  by_cases hr : (s.slot i).prog.report = .none
  · simp [hr]
  · by_cases hq : s.report.queue.length < 16
    · simp only [hr, hq, if_true, if_false]; rfl
    · simp only [hr, hq, if_false]; rfl

/-- A cancel of an active slot that is not an INPUT slot (R18). -/
theorem State.cancelActive_eq {s : State} {i : SlotId} (h : (s.slot i).prog.launch ≠ .input) :
    s.cancelActive i = cancelledRecord
      ((if (s.slot i).state = .bound then s else runAbandoned s i).setSlot i { s.slot i with pendingMark := false }) i := by
  unfold State.cancelActive
  simp only [State.stopRun_eq, beq_iff_eq]
  have hs : (if (s.slot i).state = .bound then s else runAbandoned s i).slot i = s.slot i := by split <;> simp
  rw [hs]
  unfold State.unbind
  simp only [State.slot_setSlot_self, beq_iff_eq, h, if_false]
  exact cancelledRecord_eq _ i

end Sys2Proof.Machine
end

