-- ==== Sys2Proof/Laws/DueList.lean ====
section
/-! SUPPORT. The due list: what an insertion puts in, and the arithmetic of NOW that its order rests on. -/

namespace Sys2Proof.Machine

/-- An insertion adds its entry and moves no other (R44). -/
theorem dueInsert_perm (now : Tick) (e : Entry) (l : List Entry) : (dueInsert now e l).Perm (e :: l) := by
  induction l with
  | nil => exact .refl _
  | cons x xs ih =>
    unfold dueInsert
    split
    · exact (ih.cons x).trans (.swap ..)
    · exact .refl _

@[simp] theorem mem_dueInsert {now : Tick} {e x : Entry} {l : List Entry} : x ∈ dueInsert now e l ↔ x = e ∨ x ∈ l := by
  rw [(dueInsert_perm now e l).mem_iff, List.mem_cons]

@[simp] theorem length_dueInsert (now : Tick) (e : Entry) (l : List Entry) : (dueInsert now e l).length = l.length + 1 := by
  simpa using (dueInsert_perm now e l).length_eq

/-- The distance between two times, in natural numbers (spec/00 section 0.7). -/
theorem distance_eq (a b : Tick) : distance a b = (b.toNat + 16777216 - a.toNat) % 16777216 := by
  unfold distance
  have := a.isLt
  rw [BitVec.toNat_sub]
  congr 1; omega

/-- A reached time (R25). -/
theorem reached_iff (d now : Tick) : reached d now = true ↔ distance d now < 8388608 := decide_eq_true_iff

/-- The lateness as a number (R26). -/
theorem lateness_toNat (due now : Tick) : (lateness due now).toNat = min (distance due now) 65535 := by
  unfold lateness Config.latenessLimit
  rw [BitVec.toNat_ofNat]
  omega

/-- A removal keeps the order (R42). -/
theorem Ordered.filter {now : Tick} {l : List Entry} (h : Ordered now l) (p : Entry → Bool) : Ordered now (l.filter p) :=
  List.Pairwise.filter p h

/-- The head gone, the order stays (R47). -/
theorem Ordered.tail {now : Tick} {l : List Entry} (h : Ordered now l) : Ordered now l.tail := List.Pairwise.tail h

end Sys2Proof.Machine
end

