-- ==== Sys2Proof/Laws/PerInstr.lean ====
section
/-! SUPPORT. A family of facts about commands as syntax, one lemma for each constructor: a well-formed command that stands for a bus
write is the row that the write's address and byte give (spec/09 section 9.2, spec/08 sections 8.1 to 8.3). With the obligation
BusWritesAreRows, rows and bus writes correspond one to one. -/

namespace Sys2Proof.Laws

/-- The bus write of a well-formed write row is read back as that row. -/
def BusWriteRow.Statement (i : Instr) : Prop :=
  i.wellFormed = true → ∀ address value, i.busWriteOf = some (address, value) → rowOfBusWrite address value = i

namespace BusWriteRow

/-- A row whose bus write is known is read back if that write gives the row. -/
theorem of_write {i : Instr} {a : BitVec 5} {v : Byte} (hw : i.busWriteOf = some (a, v)) (h : rowOfBusWrite a v = i) : Statement i := by
  intro _ a' v' h'
  rw [hw] at h'
  cases h'
  exact h

/-- A row that is no bus write. -/
theorem of_none {i : Instr} (h : i.busWriteOf = none) : Statement i := by
  intro _ a v h'
  rw [h] at h'
  cases h'

theorem alloc : Statement .alloc := of_write rfl rfl
theorem arm : Statement .arm := of_write rfl rfl
theorem launch : Statement .launch := of_write rfl rfl
theorem cancel : Statement .cancel := of_write rfl rfl
theorem release : Statement .release := of_write rfl rfl
theorem launchGroup : Statement .launchGroup := of_write rfl rfl
theorem cancelGroup : Statement .cancelGroup := of_write rfl rfl
theorem start : Statement .start := of_write rfl rfl
theorem stop : Statement .stop := of_write rfl rfl
theorem doze : Statement .doze := of_write rfl rfl
theorem wake : Statement .wake := of_write rfl rfl
theorem flush : Statement .flush := of_write rfl rfl

theorem badCommand (code : Byte) : Statement (.badCommand code) := by
  intro hw a v h
  cases h
  have key : ∀ c : Byte, (!isCommandCode c) = true → rowOfCommandCode c = .badCommand c := by decide
  exact key code hw

theorem pop (value : Byte) : Statement (.pop value) := of_write rfl rfl

theorem softReset (value : Byte) : Statement (.softReset value) := by
  intro hw a v h
  cases h
  exact if_pos hw

theorem hardwareReset : Statement .hardwareReset := of_none rfl
theorem resetRelease (levels : Byte) : Statement (.resetRelease levels) := of_none rfl
theorem recSelWrite (value : Byte) : Statement (.recSelWrite value) := of_write rfl rfl
theorem dataRead : Statement .dataRead := of_none rfl
theorem dataWrite (value : Byte) : Statement (.dataWrite value) := of_write rfl rfl
theorem now0Read : Statement .now0Read := of_none rfl
theorem irqFlagsWrite (value : Byte) : Statement (.irqFlagsWrite value) := of_write rfl rfl
theorem irqEnableWrite (value : Byte) : Statement (.irqEnableWrite value) := of_write rfl rfl

theorem lineRestWrite (bank : Bank) (value : Byte) : Statement (.lineRestWrite bank value) := by
  cases bank <;> exact of_write rfl rfl

theorem lineEnWrite (bank : Bank) (value : Byte) : Statement (.lineEnWrite bank value) := by
  cases bank <;> exact of_write rfl rfl

theorem lineOdWrite (bank : Bank) (value : Byte) : Statement (.lineOdWrite bank value) := by
  cases bank <;> exact of_write rfl rfl

theorem registerWrite (address : BitVec 5) (value : Byte) : Statement (.registerWrite address value) := by
  intro hw a v h
  cases h
  have key : ∀ a : BitVec 5, ∀ bit0 : Bool, (!hasRowOfItsOwn a && !(a == 0x01#5 && bit0)) = true →
      (a.toNat = 0x01 ∧ bit0 = false) ∨ (a.toNat ∉ [0x01, 0x02, 0x03, 0x04, 0x08, 0x0A, 0x0F, 0x18, 0x19, 0x1C, 0x1D, 0x1E, 0x1F]) := by
    decide
  unfold rowOfBusWrite
  rcases key address (value.getLsbD 0) hw with ⟨h₁, h₂⟩ | h
  · simp only [h₁]
    exact if_neg (by rw [h₂]; decide)
  · split <;> simp_all

theorem advance (source : AdvanceSource) : Statement (.advance source) := of_none rfl
theorem readyEvent : Statement .readyEvent := of_none rfl
theorem rawChange (line : InId) (level : Bool) : Statement (.rawChange line level) := of_none rfl
theorem qualificationComplete (line : InId) : Statement (.qualificationComplete line) := of_none rfl
theorem startExpiry : Statement .startExpiry := of_none rfl
theorem endExpiry : Statement .endExpiry := of_none rfl
theorem inputLaunch (line : InId) : Statement (.inputLaunch line) := of_none rfl
theorem visit : Statement .visit := of_none rfl

end BusWriteRow

end Sys2Proof.Laws
end

