-- ==== Sys2Proof/Laws/TimeBase.lean ====
section
/-! SUPPORT. What the operations of the time base do, each in one equation (spec/02, spec/10 section 10.2). -/

namespace Sys2Proof.Machine

/-- The reached test would turn back (R45). -/
theorem turnsBack_iff (now size d : Tick) : turnsBack now size d = true ↔ TurnsBack now size d := by
  unfold turnsBack reached Config.halfCircle
  rw [Bool.and_eq_true, decide_eq_true_iff, decide_eq_true_iff]

/-- An advance may not be made (R106, R30, R45, R175). -/
theorem State.mustHold_iff (s : State) (size : Tick) : s.mustHold size = true ↔ AdvanceWaits s size := by
  have hd : s.delivering = true ↔ ¬ NoDelivery s := by rw [← State.delivering_eq_false_iff]; simp
  have hn : (List.finRange 8).any (fun n => (s.inp n).deadline.any (turnsBack s.time.now size)) = true ↔
      ∃ n : InId, ∃ d ∈ (s.inp n).deadline.toList, TurnsBack s.time.now size d := by
    simp only [List.any_eq_true, List.mem_finRange, true_and]
    refine exists_congr fun n => ?_
    cases (s.inp n).deadline <;> simp [turnsBack_iff]
  have he : s.due.any (fun e => turnsBack s.time.now size e.due) = true ↔ ∃ e ∈ s.due, TurnsBack s.time.now size e.due := by
    simp only [List.any_eq_true, turnsBack_iff]
  unfold State.mustHold State.passesHalfCircle State.examining
  simp only [Bool.or_eq_true, Bool.and_eq_true, hd, hn, he, State.followUpOwed_eq, turnsBack_iff, beq_iff_eq, or_assoc, and_assoc]

/-- An advance falls due: made at once, or held back (R106, R30, R45, R175). -/
theorem State.advanceDue_eq (s : State) (size : Tick) : s.advanceDue size = advanceTaken s size := by
  unfold State.advanceDue advanceTaken State.makeAdvance
  have h : (s.mustHold size || !s.time.heldAdvances.isEmpty) = true ↔ AdvanceWaits s size ∨ s.time.heldAdvances ≠ [] := by
    rw [Bool.or_eq_true, State.mustHold_iff]
    cases s.time.heldAdvances <;> simp
  by_cases hw : AdvanceWaits s size ∨ s.time.heldAdvances ≠ []
  · rw [if_pos hw, if_pos (h.2 hw)]
  · rw [if_neg hw, if_neg fun e => hw (h.1 e)]

/-- The oldest held advance: made, or left waiting (R175). -/
theorem State.makeHeld_eq {s : State} {size : Tick} {rest : List Tick} (h : s.time.heldAdvances = size :: rest) :
    s.makeHeld = if AdvanceWaits s size then s else heldMade s size rest := by
  unfold State.makeHeld
  rw [h]
  by_cases hw : AdvanceWaits s size
  · exact (if_pos ((State.mustHold_iff s size).2 hw)).trans (if_pos hw).symm
  · refine (if_neg fun e => hw ((State.mustHold_iff s size).1 e)).trans (Eq.trans ?_ (if_neg hw).symm)
    unfold heldMade State.makeAdvance
    simp only [State.followUpOwed_eq]
    cases rest <;> rfl

/-- CLKIN carries NOW in RUNNING and ENTERING_DOZE (R28). -/
theorem TimeBase.onClkin_iff (t : TimeBase) : t.onClkin = true ↔ t.state = .running ∨ t.state = .enteringDoze := by
  simp [TimeBase.onClkin]

/-- The two states that WAKE ends (R35). -/
theorem TimeBase.inDoze_iff (t : TimeBase) : t.inDoze = true ↔ t.state = .enteringDoze ∨ t.state = .dozing := by
  simp [TimeBase.inDoze]

end Sys2Proof.Machine
end

