-- ==== Sys2Proof/Tests/Slice0.lean ====
section
/-! SUPPORT. Small tests: what WellFormed refuses, one step of each command against values that the spec gives (its worked sequences,
named by section), and for each statement with hypotheses a state and operands that meet them. -/

namespace Sys2Proof.Machine

/-! ### States for the tests -/

/-- The same in another time state. -/
def State.inTime (s : State) (t : TimeState) : State := { s with time.state := t }

/-- With CMD_ARG. -/
def State.arg (s : State) (b : Byte) : State := { s with cmd.arg := b }

/-- With so many records in the report queue. -/
def State.queued (s : State) (n : Nat) : State :=
  { s with report.queue := List.replicate n ⟨.occur, false, 0, 0, 0, 0⟩ }

/-- With a record and a field selected. -/
def State.select (s : State) (record : BitVec 6) (field : Byte) : State :=
  { s with port.recSel := record, port.fieldSel := field }

/-- With this due list. -/
def State.dueList (s : State) (l : List Entry) : State := { s with due := l }

/-- With a walk in progress. -/
def State.walking (s : State) (w : WalkCommand) (g : GroupId) (t0 : Tick) (pos count : Nat) : State :=
  { s with cmd := { s.cmd with busy := true, walkCommand := w, walkGroup := g, t0 := t0, walkPos := pos, walkCount := count } }

/-- The last record of the queue. -/
def State.tail (s : State) : Option Record := s.report.queue.getLast?

end Sys2Proof.Machine

namespace Sys2Proof.Tests

open Machine

/-! ### Helpers -/

/-- The state after a command. -/
def after (c : Instr) (s : State) : State :=
  match exec c s with
  | .next t => t
  | _ => s

/-- RUNNING at a given NOW, all else as after reset. -/
def runningAt (now : Tick) : State := { State.reset with time := { now := now, state := .running } }

/-! ### WellFormed -/

theorem test_bad_command_with_a_command_code_is_refused :
    (Instr.badCommand 0x01).wellFormed = false ∧ (Instr.badCommand 0x0C).wellFormed = false ∧
      (Instr.badCommand 0x00).wellFormed = true ∧ (Instr.badCommand 0x0D).wellFormed = true := by decide

theorem test_soft_reset_with_bit_0_clear_is_refused :
    (Instr.softReset 0xFE).wellFormed = false ∧ (Instr.softReset 0x01).wellFormed = true := by decide

theorem test_register_write_with_a_row_of_its_own_is_refused :
    (∀ a ∈ [0x02, 0x03, 0x04, 0x08, 0x0A, 0x0F, 0x18, 0x19, 0x1C, 0x1D, 0x1E, 0x1F],
      (Instr.registerWrite (BitVec.ofNat 5 a) 0).wellFormed = false) ∧
      (Instr.registerWrite 0x01 0x01).wellFormed = false ∧ (Instr.registerWrite 0x01 0xFE).wellFormed = true ∧
      (Instr.registerWrite 0x00 0xFF).wellFormed = true := by decide

/-! ### Slot commands (section 8.5, 10.3 and 10.5; R13 to R18, R67) -/

theorem test_alloc_takes_slot_1_when_slot_0_is_held :
    let t := after .alloc ((runningAt 5).setSlot 0 { state := .held })
    (t.slot 1).state = .held ∧ (t.slot 2).state = .free ∧ t.cmd.value = 1 ∧ t.port.flags.cmd = true := by decide

/-- The square wave of section 10.3. -/
def wave : Program where
  kind := .level
  value := .invert
  line := 5
  report := .final
  delay := 100
  period := 500
  count := 6

theorem test_arm_of_the_square_wave :
    let t := after .arm ((runningAt 20000).setSlot 0 { prog := wave, state := .held })
    t.slot 0 = { prog := wave, state := .waiting, launchTime := 20000 } ∧ t.due = [⟨0, 20100, .start⟩] ∧ t.cmd.result = 0 := by
  decide

theorem test_arm_names_the_first_failing_field :
    let t := after .arm ((runningAt 5).setSlot 0 { prog := { kind := .pulse, value := .invert, next := 0x20 }, state := .held })
    t.cmd.result = 0x04 ∧ t.cmd.value = 2 ∧ (t.slot 0).state = .held := by decide

/-- Slot 4 of section 10.5. -/
def pulse4 : Program where
  kind := .pulse
  launch := .chain
  policy := .restart
  line := 11
  report := .every
  delay := 20
  width := 300

theorem test_launch_restarts_a_driving_pulse :
    let s := (((runningAt 3300).arg 4).setSlot 4 { prog := pulse4, state := .driving, launchTime := 3130, schedStart := 3150 }).setOut 11
      { rest := true, claims := [⟨4, false⟩, ⟨1, false⟩] }
    let t := after .launch (State.dueList s [⟨1, 3400, .stop⟩, ⟨4, 3450, .stop⟩])
    (t.out 11).claims = [⟨1, false⟩] ∧ t.due = [⟨4, 3320, .start⟩, ⟨1, 3400, .stop⟩] ∧ (t.slot 4).state = .waiting ∧
      t.cmd.result = 0 ∧ t.report.queue = [] := by decide

theorem test_launch_of_a_queue_slot_is_pending :
    let t := after .launch (State.dueList (((runningAt 6000).arg 14).setSlot 14
      { prog := { launch := .chain, policy := .queue, delay := 40, report := .every }, state := .waiting }) [⟨14, 6000, .start⟩])
    t.cmd.result = 0x08 ∧ (t.slot 14).pendingMark = true ∧ t.due = [⟨14, 6000, .start⟩] := by decide

theorem test_cancel_of_a_bound_slot_in_a_cycle :
    let t := after .cancel (((runningAt 10600).arg 9).setSlot 9
      { prog := { kind := .level, launch := .chain, delay := 200, report := .final, next := 8 }, state := .bound, occurrences := 1 })
    (t.slot 9).state = .held ∧ t.tail = some ⟨.cancelled, false, 9, 10600, 0, 1⟩ ∧ t.report.queue.length = 1 := by decide

theorem test_release_returns_the_defaults :
    let t := after .release (((runningAt 5).arg 31).setSlot 31 { prog := wave, state := .held, occurrences := 6, launchTime := 20000 })
    t.slot 31 = {} ∧ t.cmd.result = 0 := by decide

/-! ### Walks (section 8.5 and 10.7) -/

theorem test_launch_group_captures_t0 :
    let t := after .launchGroup ((runningAt 40000).arg 4)
    t.cmd = { busy := true, arg := 4, walkCommand := .launchGroup, walkGroup := 4, t0 := 40000 } := by decide

theorem test_cancel_group_refuses_argument_8 :
    let t := after .cancelGroup ((runningAt 7000).arg 8)
    t.cmd.busy = false ∧ t.cmd.result = 0x02 := by decide

theorem test_visit_restarts_from_t0 :
    let s := (((runningAt 40001).arg 4).setSlot 17
      { prog := { pulse4 with group := 4, delay := 25, width := 100, period := 200, report := .none }, state := .waiting })
    let t := after .visit (State.dueList (s.walking .launchGroup 4 40000 17 1) [⟨16, 40100, .stop⟩, ⟨17, 40180, .start⟩])
    t.due = [⟨17, 40025, .start⟩, ⟨16, 40100, .stop⟩] ∧ t.cmd.walkPos = 18 ∧ t.cmd.walkCount = 2 ∧ t.cmd.busy = true := by decide

theorem test_visit_cancels_a_retiring_slot_and_slot_31_completes :
    let s := (((runningAt 7010).setSlot 31 { prog := { group := 2, report := .final }, state := .retiring, held := some ⟨.done, 7010, 0, 1⟩ }))
    let t := after .visit ({ (s.queued 16) with report.retire := [31] }.walking .cancelGroup 2 0 31 1)
    (t.slot 31).disarmMark = true ∧ (t.slot 31).state = .retiring ∧ t.cmd.busy = false ∧ t.cmd.value = 2 ∧
      t.port.flags.cmd = true := by decide

/-! ### Time commands and events (chapter 2, sections 3.11 and 10.8) -/

theorem test_start_clears_the_prescale_count :
    let t := after .start { State.reset with time := { now := 8000, prescaleCount := 3 } }
    t.time = { now := 8000, state := .running } ∧ t.cmd.result = 0 := by decide

theorem test_stop_discards_held_advances :
    let t := after .stop { State.reset with time := { now := 77, state := .dozing, slowOsc := .ready, slowCount := 4, heldAdvances := [31] } }
    t.time = { now := 77 } ∧ t.cmd.result = 0 := by decide

theorem test_doze_of_step_0_is_a_bad_field :
    let t := after .doze { runningAt 5 with time.stepReg := 0 }
    t.cmd.result = 0x04 ∧ t.cmd.value = 2 ∧ t.time.state = .running := by decide

theorem test_doze_takes_k :
    let t := after .doze { runningAt 5 with time.stepReg := 31 }
    t.time.state = .enteringDoze ∧ t.time.coarse = 31 ∧ t.time.slowOsc = .starting := by decide

theorem test_wake_does_not_set_wak :
    let t := after .wake (State.inTime (runningAt 5) .dozing)
    t.time.state = .running ∧ t.port.flags.wak = false ∧ t.cmd.result = 0 := by decide

theorem test_ready_event_enters_dozing :
    let t := after .readyEvent { runningAt 5 with
      time := { now := 5, state := .enteringDoze, slowOsc := .starting, readyOutstanding := true, prescaleCount := 2, prescale := 7 } }
    t.time.state = .dozing ∧ t.time.slowOsc = .ready ∧ t.time.prescaleCount = 0 := by decide

theorem test_coarse_step_of_31 :
    (after (.advance .slowPeriod) { runningAt 700062 with time := { now := 700062, state := .dozing, coarse := 31 } }).time.now = 700093 := by
  decide

/-- R30 and R37: a DELAY 0 slot armed in STOPPED expires at START's examination with lateness 0, before the first advance. -/
def startedAt77 : State :=
  after .start (State.dueList (State.inTime (runningAt 77) .stopped) [⟨3, 77, .start⟩])

theorem test_first_advance_waits_for_the_examination_of_start :
    let t := after (.advance .prescaler) startedAt77
    t.time.now = 77 ∧ t.time.heldAdvances = [1] ∧
      (after (.advance .held) (after .startExpiry t)).time.now = 78 ∧ (after .startExpiry t).due = [] := by decide

/-- R47: between two expiries of an examination that an advance began, the next advance is made. -/
theorem test_advance_between_two_expiries :
    (after (.advance .prescaler) (State.dueList (runningAt 77) [⟨3, 77, .start⟩])).time.now = 78 := by decide

/-- R175: the first held advance is made as the delivery ends, and the second waits for what the first one reached. -/
theorem test_second_held_advance_waits_for_the_examination :
    let s := { State.dueList (runningAt 5) [⟨3, 5, .start⟩] with time := { now := 5, state := .running, heldAdvances := [31, 1] } }
    let t := after (.advance .held) s
    t.time.now = 36 ∧ (after (.advance .held) t).time.now = 36 ∧
      (after (.advance .held) (after .startExpiry t)).time.now = 37 := by decide

/-- R45: the reached test does not turn back on an entry that is still in the list. -/
theorem test_advance_waits_at_half_the_circle :
    let s (now : Tick) : State := State.dueList (runningAt now) [⟨3, 5, .start⟩]
    (after (.advance .prescaler) (s 8388611)).time.now = 8388612 ∧ (after (.advance .prescaler) (s 8388612)).time.now = 8388612 := by
  decide

theorem test_advance_wraps :
    (after (.advance .clkinEdge) (runningAt 0xFFFFFF)).time.now = 0 := by decide

/-! ### Expiries (sections 3.11, 4.5.2, 5.10, 10.3 and 10.4) -/

theorem test_last_start_of_the_square_wave :
    let s := State.dueList ((runningAt 22600).setSlot 0 { prog := wave, state := .waiting, occurrences := 5, launchTime := 20000, schedStart := 22100 })
      [⟨0, 22600, .start⟩]
    let t := after .startExpiry (s.setOut 5 { rest := true, enable := true })
    t.slot 0 = { prog := wave, state := .held, occurrences := 6, launchTime := 20000, schedStart := 22600 } ∧ t.due = [] ∧
      t.outPin 5 = .drivenLow ∧ t.report.queue = [⟨.done, false, 0, 22600, 0, 6⟩] := by decide

theorem test_start_in_a_doze_is_missed :
    let s := State.dueList ((State.inTime (runningAt 1021) .dozing).setSlot 2
      { prog := { kind := .pulse, launch := .chain, line := 4, value := .high, width := 8, period := 12, count := 5, report := .every },
        state := .waiting }) [⟨2, 1000, .start⟩]
    let t := after .startExpiry s
    t.due = [⟨2, 1012, .start⟩] ∧ t.report.queue = [⟨.missed, false, 2, 1021, 21, 1⟩] ∧ (t.out 4).claims = [] := by decide

theorem test_end_of_the_debounced_pulse :
    let s := State.dueList ((runningAt 1295).setSlot 6
      { prog := { kind := .pulse, launch := .input, source := 2, line := 8, value := .high, width := 50, delay := 200, report := .final },
        state := .driving, schedStart := 1245 }) [⟨6, 1295, .stop⟩]
    let t := after .endExpiry (s.setOut 8 { claims := [⟨6, true⟩], enable := true })
    (t.slot 6).state = .bound ∧ (t.out 8).claims = [] ∧ t.report.queue = [⟨.done, false, 6, 1295, 0, 1⟩] := by decide

theorem test_self_chain_on_a_reached_entry_is_ignored :
    let s := State.dueList ((runningAt 8000).setSlot 20
      { prog := { launch := .chain, policy := .queue, report := .every, next := 20 }, state := .waiting, pendingMark := true,
        launchTime := 8000 }) [⟨20, 8000, .start⟩]
    let t := after .startExpiry s
    t.due = [⟨20, 8000, .start⟩] ∧ (t.slot 20).pendingMark = false ∧
      t.report.queue = [⟨.occur, false, 20, 8000, 0, 1⟩, ⟨.done, false, 20, 8000, 0, 1⟩, ⟨.launchIgnored, false, 20, 8000, 0x1401, 0⟩] := by
  decide

/-! ### Input lines (sections 6.10, 10.4 and 10.8) -/

/-- Input line 3 of section 6.10. -/
def contact : InLine where
  sense := .fall
  filter := 20
  reportEnable := true
  raw := true
  qualified := true
  events := 6
  binding := [4, 9, 17]

theorem test_closing_contact_begins_a_qualification :
    let t := after (.rawChange 3 false) (((runningAt 1011).setInp 3 contact).setPin 3 true)
    t.inp 3 = { contact with raw := false, deadline := some 1031 } := by decide

theorem test_edge_ends_the_doze :
    let s := ((State.inTime (runningAt 700093) .dozing).setPin 4 true).setInp 4
      { sense := .fall, reportEnable := true, wakeEnable := true, raw := true, qualified := true, events := 7 }
    let t := after (.rawChange 4 false) s
    t.time.state = .running ∧ t.port.flags.wak = true ∧ (t.inp 4).delivery = none ∧
      t.report.queue = [⟨.inputEdge, false, 4, 700093, 0x0000, 8⟩] := by decide

theorem test_reached_deadline_is_an_edge :
    let t := after (.qualificationComplete 3) ((runningAt 1031).setInp 3 { contact with raw := false, deadline := some 1031 })
    t.inp 3 = { contact with raw := false, qualified := false, events := 7, delivery := some ⟨[4, 9, 17], false, 7, 0, true⟩ } := by
  decide

theorem test_last_input_launch_completes_the_delivery :
    let s := ((runningAt 1031).setInp 3 { contact with
      raw := false, qualified := false, events := 7, binding := [4, 9], delivery := some ⟨[9], false, 7, 1, true⟩ }).setSlot 9
      { prog := { launch := .input, source := 3, policy := .queue, report := .every }, state := .waiting }
    let t := after (.inputLaunch 3) (State.dueList s [⟨9, 1400, .start⟩])
    (t.slot 9).pendingMark = true ∧ (t.inp 3).delivery = none ∧ t.report.queue = [⟨.inputEdge, false, 3, 1031, 0x0200, 7⟩] := by decide

/-! ### Report unit (section 7.8) -/

theorem test_pop_stores_the_held_record_with_the_gap_bit :
    let s := ({ State.queued (runningAt 4050) 16 with report.retire := [3], report.gap := true } : State).setSlot 3
      { prog := { launch := .chain, report := .every }, state := .retiring, occurrences := 1, held := some ⟨.done, 4000, 0, 1⟩ }
    let t := after (.pop 0) s
    (t.slot 3).state = .bound ∧ (t.slot 3).held = none ∧ t.report.retire = [] ∧ t.report.queue.length = 16 ∧
      t.tail = some ⟨.done, true, 3, 4000, 0, 1⟩ ∧ t.report.gap = false := by decide

theorem test_flush_releases_the_disarmed_slot :
    let s := ({ State.queued (runningAt 4100) 16 with report.retire := [21] } : State).setSlot 21
      { prog := { kind := .pulse, line := 7, width := 10, report := .final }, state := .retiring, disarmMark := true, occurrences := 1,
        held := some ⟨.done, 4010, 0, 1⟩ }
    let t := after .flush s
    (t.slot 21).state = .held ∧ t.report.queue = [⟨.done, false, 21, 4010, 0, 1⟩] ∧ t.report.retire = [] ∧ t.cmd.result = 0 := by decide

/-! ### The bus (chapter 9, section 5.10) -/

theorem test_bad_command_code :
    let t := after (.badCommand 0xFF) (runningAt 5)
    t.cmd.result = 0x07 ∧ t.cmd.value = 0 ∧ t.port.flags.cmd = true := by decide

theorem test_command_while_busy_sets_crf_alone :
    let t := after .launch (((runningAt 7011).arg 18).walking .cancelGroup 2 0 12 2)
    t.port.flags = { crf := true } ∧ t.cmd.walkPos = 12 ∧ t.cmd.result = 0 := by decide

theorem test_soft_reset_keeps_cmd_arg_and_rest_levels :
    let t := after (.softReset 0x01) ((((runningAt 5).arg 9).setSlot 3 { state := .held }).setOut 2 { rest := true, claims := [⟨3, false⟩] })
    t.slot 3 = {} ∧ (t.out 2).level = true ∧ t.cmd.arg = 9 ∧ t.time.now = 5 := by decide

theorem test_hardware_reset_releases_the_pins :
    let t := after .hardwareReset ((runningAt 5).setOut 2 { rest := true, enable := true })
    t.outPin 2 = .highImpedance ∧ t.inReset = true ∧ t.readRegister 0x00 = none := by decide

theorem test_reset_release_takes_the_pin_levels :
    let t := after (.resetRelease 0x84) { runningAt 5 with inReset := true }
    (t.inp 2).raw = true ∧ (t.inp 7).qualified = true ∧ (t.inp 0).raw = false ∧ t.time.now = 0 := by decide

theorem test_rec_sel_48h_selects_record_8 :
    (after (.recSelWrite 0x48) (runningAt 5)).port.recSel = 8 := by decide

/-- Slot 9 of section 9.4.1 at 2,538. -/
def nine : State :=
  State.dueList ((runningAt 2538).setSlot 9
    { prog := { kind := .pulse, width := 40, period := 100 }, state := .driving, occurrences := 6, schedStart := 2500 }) [⟨9, 2540, .stop⟩]

theorem test_data_read_of_f0_takes_the_snapshot :
    let t := after .dataRead (nine.select 9 0)
    t.busData = 0x04 ∧ t.port.fieldSel = 1 ∧ t.port.snapOcc = 6 ∧ t.port.snapDue = 2540 := by decide

theorem test_data_read_of_f17_wraps :
    let t := after .dataRead ({ nine.select 9 17 with port.snapDue := 2540 })
    t.busData = 0x00 ∧ t.port.fieldSel = 0 := by decide

theorem test_data_write_makes_a_free_slot_held :
    let t := after (.dataWrite 0x2A) ((runningAt 5).select 9 13)
    (t.slot 9).prog.next = 0x2A ∧ (t.slot 9).state = .held ∧ t.port.fieldSel = 14 := by decide

theorem test_data_write_to_a_driving_slot_is_rejected :
    let t := after (.dataWrite 0x2A) (nine.select 9 13)
    t.slots = nine.slots ∧ t.port.flags.wrj = true ∧ t.port.fieldSel = 14 := by decide

theorem test_now_0_read_takes_the_snapshot :
    let t := after .now0Read (runningAt 0x123456)
    t.busData = 0x56 ∧ t.readRegister 0x0C = some 0x34 ∧ t.readRegister 0x0D = some 0x12 := by decide

theorem test_irq_flags_write_clears_by_ones :
    let t := after (.irqFlagsWrite 0x05) { runningAt 5 with port.flags := ⟨true, true, true, true, true⟩ }
    t.port.flags = { ovr := true, crf := true, wrj := true, wak := true } := by decide

theorem test_irq_enable_write_asserts_irq :
    (after (.irqEnableWrite 0xC8) { runningAt 5 with port.flags := { crf := true } }).irqAsserted = true ∧
      (after (.irqEnableWrite 0xC8) { runningAt 5 with port.flags := { crf := true } }).port.enables = 0x08 := by decide

theorem test_line_rest_write_is_hidden_under_a_claim :
    let t := after (.lineRestWrite .low 0x04) ((runningAt 1068).setOut 2 { claims := [⟨13, false⟩], enable := true })
    (t.out 2).rest = true ∧ (t.out 2).level = false ∧ t.outPin 2 = .drivenLow := by decide

theorem test_line_en_write_of_the_high_bank :
    let t := after (.lineEnWrite .high 0x01) ((runningAt 5).setOut 8 { rest := true })
    t.outPin 8 = .drivenHigh ∧ t.outPin 0 = .highImpedance := by decide

theorem test_line_od_write_releases_the_pin :
    let t := after (.lineOdWrite .low 0x20) ((runningAt 5).setOut 5 { rest := true, enable := true })
    t.outPin 5 = .highImpedance ∧ (t.out 5).level = true := by decide

theorem test_register_write_to_status_is_rejected :
    let t := after (.registerWrite 0x00 0xFF) (runningAt 5)
    t.port.flags = { wrj := true } ∧ t.cmd = (runningAt 5).cmd := by decide

theorem test_register_write_to_cmd_arg :
    (after (.registerWrite 0x05 0xA7) (runningAt 5)).readRegister 0x05 = some 0xA7 := by decide

/-! ### Witnesses: a state and operands that meet the hypotheses of each statement, at the ends of the ranges -/

/-- A command runs to the state that `after` names. -/
theorem after_eq (c : Instr) (s : State) (h : ∃ t, exec c s = .next t) : exec c s = .next (after c s) := by
  obtain ⟨t, h⟩ := h
  simp only [after, h]

theorem witness_StepTakesFrontCommand :
    ({ State.reset with pending := [.start, .stop] } : State).pending = .start :: [.stop] ∧ State.reset.pending = [] := by decide

theorem witness_BusWritesAreRows : (Instr.lineOdWrite .high 0xFF).busWriteOf = some (0x1F, 0xFF) := by decide

theorem witness_HardwareResetHoldsThePart :
    (after .hardwareReset State.reset).inReset = true ∧ Instr.start ≠ .hardwareReset ∧ (∀ levels, Instr.start ≠ .resetRelease levels) ∧
      ∀ n level, Instr.start ≠ .rawChange n level :=
  ⟨by decide, by decide, nofun, nofun⟩

theorem witness_SoftResetEmptiesTheWork :
    State.reset.inReset = false ∧ (0x01 : Byte).getLsbD 0 = true ∧ (0xFE : Byte).getLsbD 0 = false := by decide

/-- A walk in progress, at slot 9, which is armed and of its group. -/
def midWalk : State :=
  ((((runningAt 5).arg 9).walking .launchGroup 2 3 9 1).setSlot 9 { prog := { launch := .chain, group := 2 }, state := .bound })

theorem witness_CommandWhileBusyIsRefused :
    (Instr.badCommand 0x00).busWriteOf = some (0x04, 0x00) ∧ midWalk.inReset = false ∧ midWalk.cmd.busy = true := by decide

theorem witness_CodeAndArgumentChecks :
    TakesCommands ((runningAt 5).arg 0x20) ∧ TakesCommands ((runningAt 5).arg 0x08) ∧ 0x20 ≤ ((runningAt 5).arg 0x20).cmd.arg.toNat ∧
      0x08 ≤ ((runningAt 5).arg 0x08).cmd.arg.toNat ∧ (0x00 : Byte).toNat = 0 ∧ 0x0D ≤ (0x0D : Byte).toNat ∧
      Instr.release ∈ [Instr.arm, .launch, .cancel, .release] ∧ Instr.cancelGroup ∈ [Instr.launchGroup, .cancelGroup] := by decide

/-- Every slot HELD, but for slot 31. -/
def allButLast : State := { runningAt 5 with slots := (Vector.replicate 32 { state := .held }).set 31 {} }

theorem witness_AllocReservesLowestFree_found :
    TakesCommands allButLast ∧ (allButLast.slot 31).state = .free ∧ ∀ j : SlotId, j < 31 → (allButLast.slot j).state ≠ .free := by decide

theorem witness_AllocReservesLowestFree_none :
    TakesCommands (allButLast.setSlot 31 { state := .held }) ∧
      ∀ i : SlotId, ((allButLast.setSlot 31 { state := .held }).slot i).state ≠ .free := by decide

/-- CMD_ARG names slot 31, which holds this. -/
def last (x : Slot) : State := ((runningAt 5).arg 31).setSlot 31 x

/-- Commands are taken and name slot 31, and it is as given. -/
theorem last_named (x : Slot) : TakesCommands (last x) ∧ ArgIs (last x) 31 ∧ (last x).slot 31 = x := by
  refine ⟨⟨rfl, rfl⟩, rfl, ?_⟩
  simp [last, State.slot, State.setSlot]

theorem witness_ReleaseByState :
    ((last { state := .held }).slot 31).state = .held ∧ ((last {}).slot 31).state = .free ∧
      ((last { state := .retiring }).slot 31).state ≠ .held ∧ ((last { state := .retiring }).slot 31).state ≠ .free := by decide

theorem witness_ArmReportsFirstFailure_state : ((last { state := .bound }).slot 31).state ≠ .held := by decide

theorem witness_ArmReportsFirstFailure_first_row :
    ∃ later, ((last { prog := { kind := .code3 }, state := .held }).slot 31).state = .held ∧
      armChecks ((last { prog := { kind := .code3 }, state := .held }).slot 31).prog = [] ++ (true, 1) :: later :=
  ⟨(armChecks { kind := .code3 }).tail, by decide⟩

theorem witness_ArmReportsFirstFailure_last_row :
    ∃ passed, ((last { prog := { next := 0xFE }, state := .held }).slot 31).state = .held ∧
      armChecks ((last { prog := { next := 0xFE }, state := .held }).slot 31).prog = passed ++ (true, 13) :: [] ∧
      ∀ row ∈ passed, row.1 = false :=
  ⟨(armChecks { next := 0xFE }).dropLast, by decide, by decide, by simp [armChecks]⟩

theorem witness_ArmEntersArmedState :
    ∀ k ∈ [LaunchKind.once, .input, .chain],
      ((last { prog := { launch := k, delay := 4194303, next := 31 }, state := .held }).slot 31).state = .held ∧
      PassesArm ((last { prog := { launch := k, delay := 4194303, next := 31 }, state := .held }).slot 31).prog ∧
      ((last { prog := { launch := k, delay := 4194303, next := 31 }, state := .held }).slot 31).prog.launch = k := by decide

theorem witness_CancelEndsActivity :
    ∀ st ∈ [SlotState.bound, .waiting, .driving],
      ((last { state := st }).slot 31).state = st ∧ ((last { state := st }).slot 31).prog.launch ≠ .input := by decide

/-- Slot 31 is an INPUT slot of line 7, in a given state, and line 7's delivery is as given. -/
def bound31 (st : SlotState) (disarm : Bool) (d : Option Delivery) : State :=
  (last { prog := { launch := .input, source := 7 }, state := st, disarmMark := disarm }).setInp 7 { binding := [31], delivery := d }

theorem witness_CancelTakesInputSlotOut :
    ∀ d ∈ [none, some ⟨[31], true, 1, 0, true⟩, some ⟨[31, 2], true, 1, 0, true⟩], ∀ st ∈ [SlotState.bound, .waiting, .driving],
      TakesCommands (bound31 st false d) ∧ ArgIs (bound31 st false d) 31 ∧ ((bound31 st false d).slot 31).state = st ∧
      ((bound31 st false d).slot 31).prog.launch = .input ∧ ((bound31 st false d).inp 7).delivery = d := by decide

theorem witness_CancelTakesInputSlotOut_left :
    [31, 2].filter (fun j => j != (31 : SlotId)) ≠ [] ∧ [31].filter (fun j => j != (31 : SlotId)) = [] := by decide

theorem witness_CancelOfRetiringSlot :
    (∀ d ∈ [none, some ⟨[31], true, 1, 0, true⟩, some ⟨[31, 2], true, 1, 0, true⟩],
      TakesCommands (bound31 .retiring false d) ∧ ArgIs (bound31 .retiring false d) 31 ∧
      ((bound31 .retiring false d).slot 31).state = .retiring ∧ ((bound31 .retiring false d).slot 31).prog.launch = .input ∧
      ((bound31 .retiring false d).slot 31).disarmMark = false ∧ ((bound31 .retiring false d).inp 7).delivery = d) ∧
    ((bound31 .retiring true none).slot 31).disarmMark = true ∧ ((last { state := .retiring }).slot 31).prog.launch ≠ .input ∧
    ((last { state := .held }).slot 31).state = .held ∧ ((last {}).slot 31).state = .free := by decide

theorem witness_LaunchCommandTellsOutcome :
    TakesCommands (last { prog := pulse4, state := .waiting }) ∧ ArgIs (last { prog := pulse4, state := .waiting }) 31 ∧
      outcomeOf (last { prog := pulse4, state := .waiting }) ⟨31, .command, 0, 5⟩ = .restart ∧
      TakesCommands ((runningAt 5).arg 0x20) ∧ 31 < ((runningAt 5).arg 0x20).cmd.arg.toNat := by decide

theorem witness_ChainAndPulseEntriesLieAhead :
    (⟨31, .chain, 0, 0xFFFFFF⟩ : Launch).kind = .chain ∧ (4194303 : Tick).toNat ≤ 4194303 ∧ (0 : Tick).toNat ≤ 4194303 ∧
      (lateness 9 9).toNat < (1 : Half).toNat ∧ (lateness 0 65534).toNat < (0xFFFF : Half).toNat := by decide

theorem witness_StartAndStop :
    TakesCommands State.reset ∧ State.reset.time.state = .stopped ∧ TakesCommands (runningAt 5) ∧
      (runningAt 5).time.state ≠ .stopped := by decide

theorem witness_DozeTakesStep :
    (∀ k ∈ [1, 4096], 1 ≤ ({ runningAt 5 with time.stepReg := BitVec.ofNat 16 k } : State).time.stepReg.toNat ∧
      ({ runningAt 5 with time.stepReg := BitVec.ofNat 16 k } : State).time.stepReg.toNat ≤ 4096) ∧
    ({ runningAt 5 with time.stepReg := 0 } : State).time.stepReg.toNat = 0 ∧
    4096 < ({ runningAt 5 with time.stepReg := 4097 } : State).time.stepReg.toNat ∧
    (runningAt 5).time.state = .running ∧ TakesCommands (runningAt 5) ∧ TakesCommands State.reset ∧
    State.reset.time.state ≠ .running := by decide

theorem witness_WakeEndsDoze :
    ∀ st : TimeState, TakesCommands ((runningAt 5).inTime st) ∧ ((runningAt 5).inTime st).time.state = st :=
  fun _ => ⟨⟨rfl, rfl⟩, rfl⟩

/-- ENTERING_DOZE, as DOZE leaves it. -/
def entering : State := after .doze (runningAt 5)

theorem witness_ReadyEventEntersDozing :
    entering.inReset = false ∧ entering.time.state = .enteringDoze ∧ entering.time.slowOsc = .starting ∧
      entering.time.readyOutstanding = true ∧ (runningAt 5).time.state ≠ .enteringDoze := by decide

/-- With this divisor less one and this prescale count. -/
def counted (st : TimeState) (prescale count : Byte) : State :=
  { State.reset with time := { state := st, prescale := prescale, prescaleCount := count } }

theorem witness_AdvanceFallsDue :
    (∀ st ∈ [TimeState.running, .enteringDoze], (counted st 255 254).time.state = st ∧
      (counted st 255 254).time.prescaleCount.toNat + 1 < (counted st 255 254).time.prescale.toNat + 1 ∧
      (counted st 255 255).time.prescale.toNat + 1 ≤ (counted st 255 255).time.prescaleCount.toNat + 1 ∧
      (counted st 0 0).time.prescale.toNat + 1 ≤ (counted st 0 0).time.prescaleCount.toNat + 1) ∧
    (counted .dozing 0 0).time.state = .dozing ∧ (counted .stopped 0 0).time.state = .stopped ∧
    (counted .running 0 0).time.state ≠ .dozing ∧ (counted .running 0 0).inReset = false := by decide

/-- Two advances held back, with line 7's delivery as given. -/
def heldBack (d : Option Delivery) : State :=
  { (runningAt 5).setInp 7 { delivery := d } with time := { now := 5, state := .running, heldAdvances := [31, 1] } }

/-- The same with an entry due at `due`, and an examination going on or not. -/
def heldBackAt (due : Tick) (examOwed : Bool) : State :=
  { runningAt 5 with due := [⟨3, due, .start⟩], time := { now := 5, state := .running, heldAdvances := [31, 1], examOwed := examOwed } }

theorem waits {s : State} {size : Tick} (h : s.mustHold size = true) : AdvanceWaits s size := (s.mustHold_iff size).1 h

theorem waits_not {s : State} {size : Tick} (h : s.mustHold size = false) : ¬ AdvanceWaits s size := fun e => by
  rw [(s.mustHold_iff size).2 e] at h; cases h

theorem witness_HeldAdvancesAreMadeInOrder_made :
    (heldBack none).inReset = false ∧ (heldBack none).time.heldAdvances = 31 :: [1] ∧ ¬ AdvanceWaits (heldBack none) 31 :=
  ⟨rfl, rfl, waits_not (by decide)⟩

theorem witness_HeldAdvancesAreMadeInOrder_entry_waits : ¬ AdvanceWaits (heldBackAt 5 false) 31 ∧ AdvanceWaits (heldBackAt 5 true) 31 :=
  ⟨waits_not (by decide), waits (by decide)⟩

theorem witness_HeldAdvancesAreMadeInOrder_delivery : AdvanceWaits (heldBack (some ⟨[3], true, 1, 0, true⟩)) 31 := waits (by decide)

theorem witness_HeldAdvancesAreMadeInOrder_half_circle :
    AdvanceWaits (heldBackAt 8388640 false) 31 ∧ ¬ AdvanceWaits (heldBackAt 8388645 false) 31 :=
  ⟨waits (by decide), waits_not (by decide)⟩

theorem witness_DivisorEdgesMakeOneTick :
    (counted .running 0 0).time.onClkin = true ∧
      (counted .running 0 0).time.prescaleCount.toNat ≤ (counted .running 0 0).time.prescale.toNat ∧
      (counted .enteringDoze 255 255).time.onClkin = true ∧
      (counted .enteringDoze 255 255).time.prescaleCount.toNat ≤ (counted .enteringDoze 255 255).time.prescale.toNat := by decide

theorem witness_NowMovesOnlyByAdvances :
    exec (.advance .held) (heldBack none) = .next (after (.advance .held) (heldBack none)) ∧
      (after (.advance .held) (heldBack none)).time.now = 36 ∧
      exec .alloc (runningAt 5) = .next (after .alloc (runningAt 5)) ∧ ∀ source, Instr.alloc ≠ .advance source :=
  ⟨rfl, by decide, rfl, nofun⟩

theorem witness_InsertionPlace : Ordered 5 [⟨0, 0xFFFFFF, .start⟩, ⟨1, 5, .start⟩, ⟨2, 8388612, .stop⟩] := by decide

theorem witness_OrderOutlivesAdvance :
    (Ordered 8388606 [⟨0, 0, .start⟩, ⟨2, 8388607, .stop⟩] ∧ (1 : Tick).toNat < 8388608 ∧
      ∀ e ∈ [(⟨0, 0, .start⟩ : Entry), ⟨2, 8388607, .stop⟩], reached e.due 8388606 = true →
        distance e.due 8388606 + (1 : Tick).toNat < 8388608) ∧
    (Ordered 5 [⟨0, 5, .start⟩] ∧ (8388607 : Tick).toNat < 8388608 ∧
      ∀ e ∈ [(⟨0, 5, .start⟩ : Entry)], reached e.due 5 = true → distance e.due 5 + (8388607 : Tick).toNat < 8388608) := by decide

/-- Slot 31 at the head of the due list, due at 5, with NOW as given. -/
def headAt (now : Tick) (p : Purpose) (prog : Program) : State :=
  (((runningAt now).setSlot 31 { prog := prog, state := if p = .start then .waiting else .driving }).dueList [⟨31, 5, p⟩])

theorem witness_StartExpiryOfNotifyAndLevel :
    HeadReached (headAt 5 .start {}) 31 5 .start [] ∧ HeadReached (headAt 8388612 .start {}) 31 5 .start [] ∧
      ((headAt 5 .start {}).slot 31).prog.kind = .notify ∧
      ∀ v ∈ [LevelValue.low, .high, .invert], HeadReached (headAt 5 .start { kind := .level, value := v }) 31 5 .start [] ∧
        ((headAt 5 .start { kind := .level, value := v }).slot 31).prog.kind = .level ∧
        ((headAt 5 .start { kind := .level, value := v }).slot 31).prog.value = v := by decide

/-- A pulse of WIDTH 8 on line 15, with a stack of so many claims. -/
def pulseAt (now : Tick) (v : LevelValue) (claims : Nat) : State :=
  (headAt now .start { kind := .pulse, value := v, line := 15, width := 8 }).setOut 15 { claims := List.replicate claims ⟨1, true⟩ }

theorem witness_StartExpiryOfPulse_missed :
    HeadReached (pulseAt 13 .low 0) 31 5 .start [] ∧ ((pulseAt 13 .low 0).slot 31).prog.kind = .pulse ∧
      ((pulseAt 13 .low 0).slot 31).prog.value = .low ∧
      ((pulseAt 13 .low 0).slot 31).prog.width.toNat ≤ (lateness 5 13).toNat := by decide

theorem witness_StartExpiryOfPulse_refused_and_taken :
    HeadReached (pulseAt 12 .high 4) 31 5 .start [] ∧ ((pulseAt 12 .high 4).slot 31).prog.value = .high ∧
      (lateness 5 12).toNat < ((pulseAt 12 .high 4).slot 31).prog.width.toNat ∧ 4 ≤ ((pulseAt 12 .high 4).out 15).claims.length ∧
      HeadReached (pulseAt 12 .high 3) 31 5 .start [] ∧ ((pulseAt 12 .high 3).slot 31).prog.kind = .pulse ∧
      (lateness 5 12).toNat < ((pulseAt 12 .high 3).slot 31).prog.width.toNat ∧
      ((pulseAt 12 .high 3).out 15).claims.length < 4 := by decide

theorem witness_EndExpiryEndsPulse : HeadReached (headAt 5 .stop pulse4) 31 5 .stop [] := by decide

theorem witness_NoExpiryBeforeItsTime :
    ((headAt 5 .start {}).inTime .stopped).time.state = .stopped ∧ (runningAt 5).due = [] ∧
      (headAt 4 .start {}).due = ⟨31, 5, .start⟩ :: [] ∧ reached 5 (headAt 4 .start {}).time.now = false := by decide

theorem witness_LineWritesSetEightLines : (runningAt 5).inReset = false := by decide

theorem witness_PinsFollowTheLine :
    let line (enable openDrain rest : Bool) : State := (runningAt 5).setOut 15 { rest := rest, enable := enable, openDrain := openDrain }
    (line true false false).inReset = false ∧ (line true false false).outPin 15 = .drivenLow ∧
      (line true false true).outPin 15 = .drivenHigh ∧ (line true true true).outPin 15 = .highImpedance ∧
      (line false false true).outPin 15 = .highImpedance := by decide

/-- Input line 7 as given. -/
def line7 (l : InLine) : State := (runningAt 5).setInp 7 l

theorem witness_RawChangeByLineState :
    (line7 {}).inReset = false ∧ ((line7 {}).inp 7).delivery = none ∧ ((line7 {}).inp 7).sense = .off ∧ true ≠ ((line7 {}).inp 7).raw ∧
      ((line7 { delivery := some ⟨[3], true, 1, 0, true⟩ }).inp 7).delivery ≠ none ∧
      ((line7 { sense := .rise, raw := true, deadline := some 9 }).inp 7).deadline ≠ none ∧
      ((line7 { sense := .rise, filter := 255 }).inp 7).filter ≠ 0 ∧ ((line7 { sense := .rise }).inp 7).filter = 0 ∧
      matchesSense ((line7 { sense := .rise }).inp 7).sense true ∧ ¬ matchesSense ((line7 { sense := .fall }).inp 7).sense true := by decide

theorem witness_QualificationCompletes :
    ((line7 { sense := .rise, raw := true, deadline := some 5 }).inp 7).deadline = some 5 ∧ reached 5 (line7 {}).time.now = true ∧
      (line7 {}).time.state ≠ .stopped ∧ matchesSense .rise true ∧ ¬ matchesSense .fall true ∧ (line7 {}).inReset = false ∧
      ((line7 {}).inp 7).deadline = none ∧ reached 6 (line7 { deadline := some 6 }).time.now = false ∧
      ((line7 { deadline := some 5 }).inTime .stopped).time.state = .stopped := by decide

theorem witness_InputLaunchDelivers :
    ∀ rest ∈ [[], [(2 : SlotId)]], (line7 { delivery := some ⟨31 :: rest, true, 1, 0, true⟩ }).inReset = false ∧
      ((line7 { delivery := some ⟨31 :: rest, true, 1, 0, true⟩ }).inp 7).delivery = some ⟨31 :: rest, true, 1, 0, true⟩ := by decide

theorem witness_InputLinesShareNothing :
    (Instr.rawChange 7 true = .qualificationComplete 7 ∨ Instr.rawChange 7 true = .inputLaunch 7 ∨
      ∃ level, Instr.rawChange 7 true = .rawChange 7 level) ∧
    exec (.rawChange 7 true) (line7 { sense := .rise, binding := [3] }) =
      .next (after (.rawChange 7 true) (line7 { sense := .rise, binding := [3] })) ∧ (6 : InId) ≠ 7 :=
  ⟨.inr (.inr ⟨true, rfl⟩), rfl, by decide⟩

/-- A full queue, with slot 31 retiring under these marks. -/
def fullQueue (pending disarm : Bool) : State :=
  let x : Slot := ⟨{ launch := .chain, policy := .queue, report := .final }, .retiring, pending, disarm, 1, 0, 0, some ⟨.done, 4, 0, 1⟩⟩
  { (last x).queued 16 with report.retire := [31] }

theorem witness_PopTakesTheHead :
    (runningAt 5).report.queue = [] ∧ ((runningAt 5).queued 1).report.queue = ⟨.occur, false, 0, 0, 0, 0⟩ :: [] ∧
      ((runningAt 5).queued 1).report.retire = [] ∧ (fullQueue false false).inReset = false ∧
      (fullQueue false false).report.queue = ⟨.occur, false, 0, 0, 0, 0⟩ :: List.replicate 15 ⟨.occur, false, 0, 0, 0, 0⟩ ∧
      (fullQueue false false).report.retire = 31 :: [] ∧
      ((fullQueue false false).slot 31).held = some ⟨.done, 4, 0, 1⟩ := by decide

theorem witness_FlushReleasesInOrder :
    ∀ s ∈ [fullQueue false false, fullQueue true false, fullQueue false true], TakesCommands s ∧ ReportLaw s ∧
      ∀ i : SlotId, (s.slot i).held.isSome = true ↔ (s.slot i).state = .retiring := by decide

theorem witness_PopAndCancelInEitherOrder :
    let s := (last { prog := { launch := .chain, report := .final }, state := .bound }).queued 16
    (TakesCommands s ∧ ArgIs s 31 ∧ (s.slot 31).state = .bound ∧ (s.slot 31).prog.launch ≠ .input ∧ s.report.queue.length = 16 ∧
      s.report.retire = [] ∧ (s.slot 31).disarmMark = false ∧ (s.slot 31).held = none) ∧
    exec (.pop 0) s = .next (after (.pop 0) s) ∧ exec .cancel (after (.pop 0) s) = .next (after .cancel (after (.pop 0) s)) ∧
    exec .cancel s = .next (after .cancel s) ∧ exec (.pop 0) (after .cancel s) = .next (after (.pop 0) (after .cancel s)) :=
  ⟨by decide, rfl, rfl, rfl, rfl⟩

theorem witness_WalkIsTaken :
    TakesCommands ((runningAt 5).arg 7) ∧ ((runningAt 5).arg 7).cmd.arg = BitVec.ofNat 8 (7 : GroupId).val := by decide

theorem witness_VisitByWalkCommand :
    midWalk.inReset = false ∧ midWalk.cmd.busy = true ∧ midWalk.cmd.walkPos = (9 : SlotId).val ∧ (midWalk.slot 9).armed = true ∧
      (midWalk.slot 9).prog.group = midWalk.cmd.walkGroup ∧ midWalk.cmd.walkCommand = .launchGroup ∧
      (midWalk.walking .cancelGroup 2 0 9 1).cmd.walkCommand = .cancelGroup ∧
      (midWalk.walking .launchGroup 2 0 31 1).cmd.walkPos = (31 : SlotId).val ∧ (midWalk.slot 31).armed = false ∧
      (runningAt 5).cmd.busy = false := by decide

/-- The state mid-walk is one of those that the laws describe. -/
theorem midWalk_consistent : Consistent midWalk := ⟨by decide, by decide, by decide, by decide, by decide⟩

theorem witness_NoSlotArmedDuringWalk :
    Consistent midWalk ∧ midWalk.cmd.busy = true ∧ exec .visit midWalk = .next (after .visit midWalk) ∧
      ((after .visit midWalk).slot 9).armed = true :=
  ⟨midWalk_consistent, by decide, rfl, by decide⟩

theorem witness_RecSelWriteSelects :
    (runningAt 5).inReset = false ∧ (0xDF : Byte).toNat % 64 = (31 : SlotId).val ∧ 32 ≤ (0x20 : Byte).toNat % 64 ∧
      (nine.slot 9).state = .driving ∧ nine.due = [] ++ ⟨9, 2540, .stop⟩ :: [] ∧ ((last { state := .retiring }).slot 31).state ≠ .waiting ∧
      ((last { state := .retiring }).slot 31).state ≠ .driving := by decide

theorem witness_DataReadReturnsField :
    let s (r : BitVec 6) (f : Byte) : State := (runningAt 5).select r f
    (s 0 0).inReset = false ∧ recordLength (s 31 18).port.recSel.toNat ≤ (s 31 18).port.fieldSel.toNat ∧
      recordLength (s 63 0).port.recSel.toNat ≤ (s 63 0).port.fieldSel.toNat ∧
      (s 31 17).port.fieldSel.toNat < recordLength (s 31 17).port.recSel.toNat ∧
      (s 32 0).port.fieldSel.toNat < recordLength (s 32 0).port.recSel.toNat ∧
      ¬ ((s 32 0).port.recSel.toNat < 32 ∧ (s 32 0).port.fieldSel.toNat = 0) ∧
      (s 31 0).port.recSel.toNat = (31 : SlotId).val ∧ (s 31 0).port.fieldSel.toNat = 0 := by decide

theorem witness_DataReadReturnsField_records :
    let s (r : BitVec 6) : State := ((runningAt 5).setOut 15 { claims := [⟨31, true⟩, ⟨0, false⟩, ⟨1, true⟩, ⟨2, true⟩] }).select r 0
    (s 31).port.recSel.toNat = (31 : SlotId).val ∧ (s 47).port.recSel.toNat = 32 + (15 : OutId).val ∧
      ((s 47).out 15).claims.length ≤ 4 ∧ ((s 47).out 15).claims[3]? = some ⟨2, true⟩ ∧ ((s 47).out 14).claims[0]? = none ∧
      (s 55).port.recSel.toNat = 48 + (7 : InId).val ∧ (bound31 .bound false none).inp 7 = { binding := [31] } ∧
      ((s 55).inp 7).binding = [] ∧ (s 56).port.recSel.toNat = 56 := by decide

theorem witness_DataWriteStoresOrRejects :
    let s (r : BitVec 6) (f : Byte) : State := (runningAt 5).select r f
    (s 0 0).inReset = false ∧ recordLength (s 57 0).port.recSel.toNat ≤ (s 57 0).port.fieldSel.toNat ∧
      recordLength (s 31 18).port.recSel.toNat ≤ (s 31 18).port.fieldSel.toNat ∧ (s 31 17).port.recSel.toNat = (31 : SlotId).val ∧
      ((s 31 1).slot 31).state = .free ∧ ((last { state := .driving }).slot 31).state ≠ .free ∧
      ((last { state := .driving }).slot 31).state ≠ .held ∧ 32 ≤ (s 32 0).port.recSel.toNat ∧ (s 47 4).port.recSel.toNat < 48 ∧
      (s 48 2).port.recSel.toNat = 48 + (0 : InId).val ∧ (s 55 0).port.recSel.toNat = 48 + (7 : InId).val ∧
      (s 56 1).port.recSel.toNat = 56 ∧ (s 56 2).time.state = .running ∧ State.reset.time.state = .stopped ∧
      entering.time.state = .enteringDoze := by decide

theorem witness_ConfigWriteSetsLine :
    let l : InLine := { sense := .rise, raw := true, deadline := some 9 }
    (l.writeConfig 0xFC).sense = .off ∧ l.deadline ≠ none ∧ (l.writeConfig 0x03).sense ≠ .off ∧ ({} : InLine).deadline = none := by decide

theorem witness_ActionFieldsPackAndReadBack : ({} : Program).write 13 0xFF = some {} ∧ (2 : Nat) ≠ 13 := by decide

theorem witness_Now0ReadTakesSnapshot : (runningAt 0xFFFFFF).inReset = false := by decide

theorem witness_InterruptWrites : (runningAt 5).inReset = false ∧ 1 ≤ 5 ∧ 5 ≤ 5 := by decide

theorem witness_RegisterWriteStoresOrRejects :
    (runningAt 5).inReset = false ∧ isOtherWrite 0x05 0xFF = true ∧ isOtherWrite 0x09 0xFF = true ∧ isOtherWrite 0x01 0xFE = true ∧
      isOtherWrite 0x00 0xFF = true ∧ isOtherWrite 0x1B 0xFF = true := by decide

theorem witness_ReadsShowState_data :
    let s (f : Byte) : State := (runningAt 5).select 31 f
    (s 17).port.fieldSel.toNat < recordLength (s 17).port.recSel.toNat ∧
      recordLength (s 18).port.recSel.toNat ≤ (s 18).port.fieldSel.toNat ∧ ((runningAt 5).queued 16).report.queue.length ≤ 16 := by decide

theorem witness_ReadsShowState :
    (runningAt 5).report.queue = [] ∧
      ((runningAt 5).queued 2).report.queue = ⟨.occur, false, 0, 0, 0, 0⟩ :: [⟨.occur, false, 0, 0, 0, 0⟩] := by decide

theorem witness_HostSettingsMoveByHostWrites :
    (Instr.lineEnWrite .low 0xFF).wellFormed = true ∧
      exec (.lineEnWrite .low 0xFF) (runningAt 5) = .next (after (.lineEnWrite .low 0xFF) (runningAt 5)) ∧
      Instr.lineEnWrite .low 0xFF ≠ .hardwareReset ∧ (∀ levels, Instr.lineEnWrite .low 0xFF ≠ .resetRelease levels) ∧
      (∀ bank b, Instr.lineEnWrite .low 0xFF ≠ .lineOdWrite bank b) ∧ (∀ b, Instr.lineEnWrite .low 0xFF ≠ .recSelWrite b) ∧
      (∀ b, Instr.lineEnWrite .low 0xFF ≠ .irqEnableWrite b) ∧ ∀ bank b, Instr.dataRead ≠ .lineEnWrite bank b :=
  ⟨rfl, rfl, nofun, nofun, nofun, nofun, nofun, nofun⟩

/-- A consistent state whose next command is a visit. -/
def visitNext : State := { midWalk with pending := [.visit] }

theorem witness_StepKeepsConsistent : Consistent visitNext ∧ step visitNext = .next (after .visit midWalk) :=
  ⟨⟨midWalk_consistent.slots, midWalk_consistent.due, midWalk_consistent.claims, midWalk_consistent.reports,
    midWalk_consistent.bindings⟩, rfl⟩

theorem witness_StepKeepsUnitLaws :
    TimeLaw visitNext.time ∧ (∀ n : InId, InputLaw (visitNext.inp n)) ∧ WalkLaw visitNext.cmd ∧
      step visitNext = .next (after .visit midWalk) :=
  ⟨by decide, by decide, by decide, rfl⟩

theorem witness_DueListKeepsOrderAndHorizon_commands :
    Ordered midWalk.time.now midWalk.due ∧ exec .visit midWalk = .next (after .visit midWalk) ∧
      ∀ source, Instr.visit ≠ .advance source :=
  ⟨by decide, rfl, nofun⟩

/-- Slot 31 waits with a reached entry, and the next command is an advance. -/
def advanceNext : State :=
  { State.dueList (last { prog := { launch := .chain, group := 2 }, state := .waiting }) [⟨31, 5, .start⟩] with
    pending := [.advance .prescaler] }

theorem advanceNext_consistent : Consistent advanceNext := ⟨by decide, by decide, by decide, by decide, by decide⟩

theorem advanceNext_horizon : HorizonLaw advanceNext := by
  have hd : ∀ n : InId, (advanceNext.inp n).deadline = none := by decide
  refine ⟨fun e h => ?_, fun n d h => ?_, nofun, nofun⟩
  · obtain rfl := List.mem_singleton.1 h
    exact ⟨.inl (by decide), nofun⟩
  · rw [hd n] at h; cases h

theorem witness_DueListKeepsOrderAndHorizon_laws :
    TimeLaw advanceNext.time ∧ HorizonLaw advanceNext ∧ Ordered advanceNext.time.now advanceNext.due :=
  ⟨by decide, advanceNext_horizon, by decide⟩

theorem witness_DueListKeepsOrderAndHorizon_steps :
    step advanceNext = .next (after (.advance .prescaler) { advanceNext with pending := [] }) ∧
      (⟨31, 5, .start⟩ : Entry) ∈ advanceNext.due ∧ reached 5 advanceNext.time.now = true :=
  ⟨after_eq (.advance .prescaler) { advanceNext with pending := [] } ⟨_, rfl⟩, List.mem_singleton_self _, by decide⟩

end Sys2Proof.Tests
end

section

namespace Sys2Proof.Machine

/-! ### COMMAND rows whose command is taken -/

/-- A COMMAND write that is taken runs its command (R138, R139, R170). -/
theorem State.whenOn_commandWrite {s : State} (h : TakesCommands s) (code : Byte) :
    s.whenOn (State.commandWrite code) = s.takeCommand code := by
  obtain ⟨hon, hidle⟩ := h
  rw [State.whenOn_of_on hon, State.commandWrite_of_idle hidle]

theorem exec_alloc {s : State} (h : TakesCommands s) :
    exec .alloc s = .next (withResult s.allocSlot.state s.allocSlot.result.code s.allocSlot.value) :=
  congrArg Host.Outcome.next (State.whenOn_commandWrite h 0x01)

theorem exec_arm {s : State} {i : SlotId} (h : TakesCommands s) (ha : ArgIs s i) :
    exec .arm s = .next (withResult (s.armSlot i).state (s.armSlot i).result.code (s.armSlot i).value) :=
  congrArg Host.Outcome.next ((State.whenOn_commandWrite h 0x02).trans (State.slotCommand_of_argIs ha State.armSlot))

theorem exec_cancel {s : State} {i : SlotId} (h : TakesCommands s) (ha : ArgIs s i) :
    exec .cancel s = .next (withResult (s.cancelSlot i).state (s.cancelSlot i).result.code (s.cancelSlot i).value) :=
  congrArg Host.Outcome.next ((State.whenOn_commandWrite h 0x04).trans (State.slotCommand_of_argIs ha State.cancelSlot))

theorem exec_release {s : State} {i : SlotId} (h : TakesCommands s) (ha : ArgIs s i) :
    exec .release s = .next (withResult (s.releaseSlot i).state (s.releaseSlot i).result.code (s.releaseSlot i).value) :=
  congrArg Host.Outcome.next ((State.whenOn_commandWrite h 0x05).trans (State.slotCommand_of_argIs ha State.releaseSlot))

/-! ### ALLOC and RELEASE -/

theorem State.allocSlot_of_some {s : State} {i : SlotId} (h : s.lowestFree = some i) :
    s.allocSlot = ⟨s.setSlot i { s.slot i with state := .held }, .ok, slotByte i⟩ := by
  simp [State.allocSlot, h]

theorem State.allocSlot_of_none {s : State} (h : s.lowestFree = none) : s.allocSlot = ⟨s, .noSlot, 0xFF⟩ := by
  simp [State.allocSlot, h]

/-- Settles O10: the search of ALLOC finds the slot that is FREE below all others, or none. -/
theorem allocReservesLowestFree : Obligations.AllocReservesLowestFree := by
  intro s hs
  constructor
  · intro i hfree hlow
    rw [exec_alloc hs, State.allocSlot_of_some (State.lowestFree_eq_some hfree hlow)]
    rfl
  · intro hnone
    rw [exec_alloc hs, State.allocSlot_of_none (State.lowestFree_eq_none hnone)]
    rfl

theorem State.releaseSlot_of_held {s : State} {i : SlotId} (h : (s.slot i).state = .held) :
    s.releaseSlot i = ⟨s.setSlot i {}, .ok, 0⟩ := by
  simp [State.releaseSlot, h]

theorem State.releaseSlot_of_free {s : State} {i : SlotId} (h : (s.slot i).state = .free) : s.releaseSlot i = ⟨s, .ok, 0⟩ := by
  simp [State.releaseSlot, h]

theorem State.releaseSlot_of_armed {s : State} {i : SlotId} (hh : (s.slot i).state ≠ .held) (hf : (s.slot i).state ≠ .free) :
    s.releaseSlot i = ⟨s, .badState, 0⟩ := by
  unfold State.releaseSlot
  split <;> trivial

/-- Settles O11, by the state of the slot; a launch at the slot that RELEASE made FREE is LOST. -/
theorem releaseByState : Obligations.ReleaseByState := by
  intro s i hs ha
  refine ⟨fun hheld => ⟨?_, ?_⟩, fun hfree => ?_, fun hh hf => ?_⟩
  · rw [exec_release hs ha, State.releaseSlot_of_held hheld]
    rfl
  · rintro l rfl
    refine outcomeOf_of_unarmed (.inl ?_)
    exact congrArg Slot.state (State.slot_setSlot_self s l.target {})
  · rw [exec_release hs ha, State.releaseSlot_of_free hfree]
    rfl
  · rw [exec_release hs ha, State.releaseSlot_of_armed hh hf]
    rfl

/-! ### ARM -/

theorem State.armSlot_of_not_held {s : State} {i : SlotId} (h : (s.slot i).state ≠ .held) : s.armSlot i = ⟨s, .badState, 0⟩ := by
  simp [State.armSlot, h]

theorem State.armSlot_of_badField {s : State} {i : SlotId} {field : Byte} (h : (s.slot i).state = .held)
    (hc : (s.slot i).prog.armCheck = some field) : s.armSlot i = ⟨s, .badField, field⟩ := by
  simp [State.armSlot, h, hc]

theorem State.armSlot_of_passes {s : State} {i : SlotId} (h : (s.slot i).state = .held) (hp : PassesArm (s.slot i).prog) :
    s.armSlot i = ⟨s.enterArmed i, .ok, 0⟩ := by
  simp [State.armSlot, h, Program.armCheck_of_passes hp]

/-- Rows that pass do not decide the result of ARM: the first that fails does (R16). -/
theorem Program.armCheck_of_firstFailure {p : Program} {passed later : List (Bool × Byte)} {field : Byte}
    (h : armChecks p = passed ++ (true, field) :: later) (hp : ∀ row ∈ passed, row.1 = false) : p.armCheck = some field := by
  have hnone : passed.findSome? (fun row => if row.1 then some row.2 else none) = none := by
    rw [List.findSome?_eq_none_iff]
    intro row hrow
    simp [hp row hrow]
  rw [Program.armCheck_eq, h, List.findSome?_append, hnone, firstFailure_cons]
  rfl

/-- Settles O12: the table of R16 is searched in the order of its rows. -/
theorem armReportsFirstFailure : Obligations.ArmReportsFirstFailure := by
  intro s i hs ha
  constructor
  · intro hstate
    rw [exec_arm hs ha, State.armSlot_of_not_held hstate]
    rfl
  · intro passed field later hheld htable hpassed
    rw [exec_arm hs ha, State.armSlot_of_badField hheld (Program.armCheck_of_firstFailure htable hpassed)]
    rfl

theorem State.enterArmed_of_once {s : State} {i : SlotId} (h : (s.slot i).prog.launch = .once) :
    s.enterArmed i =
      runBegun (examNoted s) i s.time.now (s.time.now + (s.slot i).prog.delay) (s.slot i).pendingMark := by
  simp [State.enterArmed, h, State.noteExamination_eq, State.beginRun_eq, firstDue]

theorem State.enterArmed_of_input {s : State} {i : SlotId} (h : (s.slot i).prog.launch = .input) :
    s.enterArmed i = (s.setSlot i { s.slot i with state := .bound, occurrences := 0 }).setInp (s.slot i).prog.source
      { s.inp (s.slot i).prog.source with binding := (s.inp (s.slot i).prog.source).binding ++ [i] } := by
  simp [State.enterArmed, h, State.joinBinding]

theorem State.enterArmed_of_chain {s : State} {i : SlotId} (h : (s.slot i).prog.launch = .chain) :
    s.enterArmed i = s.setSlot i { s.slot i with state := .bound, occurrences := 0 } := by
  simp [State.enterArmed, h]

/-- Settles O13, by LAUNCH (R17). -/
theorem armEntersArmedState : Obligations.ArmEntersArmedState := by
  intro s i hs ha hheld hpasses
  rw [exec_arm hs ha, State.armSlot_of_passes hheld hpasses]
  refine ⟨fun honce => ?_, fun hinput => ?_, fun hchain => ?_⟩
  · rw [State.enterArmed_of_once honce]
    rfl
  · rw [State.enterArmed_of_input hinput]
    rfl
  · rw [State.enterArmed_of_chain hchain]
    rfl

/-! ### CANCEL -/

theorem State.cancelSlot_of_active {s : State} {i : SlotId}
    (h : (s.slot i).state = .bound ∨ (s.slot i).state = .waiting ∨ (s.slot i).state = .driving) :
    s.cancelSlot i = ⟨s.cancelActive i, .ok, 0⟩ := by
  rcases h with h | h | h <;> simp [State.cancelSlot, State.cancel, h]

theorem State.cancelSlot_of_retiring {s : State} {i : SlotId} (h : (s.slot i).state = .retiring) :
    s.cancelSlot i = ⟨s.cancelRetiring i, .ok, 0⟩ := by
  simp [State.cancelSlot, State.cancel, h]

theorem State.cancelSlot_of_unarmed {s : State} {i : SlotId} (h : (s.slot i).state = .held ∨ (s.slot i).state = .free) :
    s.cancelSlot i = ⟨s, .badState, 0⟩ := by
  rcases h with h | h <;> simp [State.cancelSlot, State.cancel, h]

theorem exec_cancel_of_active {s : State} {i : SlotId} (h : TakesCommands s) (ha : ArgIs s i)
    (hs : (s.slot i).state = .bound ∨ (s.slot i).state = .waiting ∨ (s.slot i).state = .driving) :
    exec .cancel s = .next (withResult (s.cancelActive i) 0x00 0) := by
  have hslot := State.cancelSlot_of_active hs
  generalize s.cancelActive i = t at hslot ⊢
  rw [exec_cancel h ha, hslot]
  rfl

theorem exec_cancel_of_retiring {s : State} {i : SlotId} (h : TakesCommands s) (ha : ArgIs s i)
    (hs : (s.slot i).state = .retiring) : exec .cancel s = .next (withResult (s.cancelRetiring i) 0x00 0) := by
  have hslot := State.cancelSlot_of_retiring hs
  generalize s.cancelRetiring i = t at hslot ⊢
  rw [exec_cancel h ha, hslot]
  rfl

/-- Settles O14 with the equation of a cancel that leaves no binding list. -/
theorem cancelEndsActivity : Obligations.CancelEndsActivity := by
  intro s i hs ha hactive hlaunch
  rw [exec_cancel_of_active hs ha hactive, State.cancelActive_eq hlaunch]

/-- A cancel of an active slot: its run is stopped, an INPUT slot leaves its binding list, and its CANCELLED record follows (R18). -/
theorem State.cancelActive_eq_unbind (s : State) (i : SlotId) :
    s.cancelActive i = cancelledRecord
      (((if (s.slot i).state = .bound then s else runAbandoned s i).setSlot i { s.slot i with pendingMark := false }).unbind i) i := by
  have hslot : (if (s.slot i).state = .bound then s else runAbandoned s i).slot i = s.slot i := by split <;> simp
  rw [← cancelledRecord_eq]
  unfold State.cancelActive
  simp only [State.stopRun_eq, beq_iff_eq, hslot]

theorem State.unbind_of_input {s : State} {i : SlotId} (h : (s.slot i).prog.launch = .input) : s.unbind i = s.leaveBinding i := by
  simp [State.unbind, h]

/-- A cancel of a RETIRING slot sets its marks; an INPUT slot that is not yet disarmed leaves its binding list (R19). -/
theorem State.cancelRetiring_eq (s : State) (i : SlotId) :
    s.cancelRetiring i =
      let u := s.setSlot i { s.slot i with pendingMark := false, disarmMark := true }
      if (s.slot i).prog.launch = .input ∧ (s.slot i).disarmMark = false then u.leaveBinding i else u := by
  unfold State.cancelRetiring State.unbind
  cases hd : (s.slot i).disarmMark <;> by_cases hl : (s.slot i).prog.launch = .input <;> simp [hl]

@[simp] theorem runAbandoned_ins (s : State) (i : SlotId) : (runAbandoned s i).ins = s.ins := by
  unfold runAbandoned; dsimp only; split <;> rfl

@[simp] theorem runAbandoned_inp (s : State) (i : SlotId) (n : InId) : (runAbandoned s i).inp n = s.inp n :=
  State.inp_congr (by simp) n

@[simp] theorem runAbandoned_pins (s : State) (i : SlotId) : (runAbandoned s i).pins = s.pins := by
  unfold runAbandoned; dsimp only; split <;> rfl

@[simp] theorem runAbandoned_inReset (s : State) (i : SlotId) : (runAbandoned s i).inReset = s.inReset := by
  unfold runAbandoned; dsimp only; split <;> rfl

/-- The comparison of the pin that closes a delivery is the RAW_CHANGE to the level that stands at the pin (R107 step 3). -/
theorem exec_rawChange_of_same_pins {s v : State} {n : InId} (hp : v.pins = s.pins) (hr : v.inReset = false) :
    exec (.rawChange n (s.pin n)) v = .next (v.comparePin n) := by
  have hpin : s.pin n = v.pin n := by simp [State.pin, hp]
  rw [hpin]
  exact congrArg Host.Outcome.next (State.comparePin_eq v n hr)

/-- How a slot leaves its binding list, by the delivery of the line: none, one in which slots remain, one left empty (R111, R107). -/
theorem State.leaveBinding_by_delivery {u : State} {i : SlotId} {n : InId} {l : InLine} (hsource : (u.slot i).prog.source = n)
    (hinp : u.inp n = l) :
    let out := l.binding.filter fun j => j != i
    (l.delivery = none → u.leaveBinding i = u.setInp n { l with binding := out }) ∧
    ∀ d : Delivery, l.delivery = some d →
      let slots := d.slots.filter fun j => j != i
      let v := u.setInp n { l with binding := out, delivery := some { d with slots := slots } }
      (slots ≠ [] → u.leaveBinding i = v) ∧ (slots = [] → u.leaveBinding i = (deliveryClosed v n).comparePin n) := by
  subst hsource hinp
  exact ⟨State.leaveBinding_of_none, fun d hd => ⟨State.leaveBinding_of_left hd, State.leaveBinding_of_empty hd⟩⟩

/-- Settles O15, by the delivery that the slot leaves. -/
theorem cancelTakesInputSlotOut : Obligations.CancelTakesInputSlotOut := by
  intro s i hs ha hactive hlaunch n l u out
  have hslot : u.slot i = { s.slot i with pendingMark := false } := State.slot_setSlot_self ..
  have hkept : u.inp n = l ∧ u.pins = s.pins ∧ u.inReset = s.inReset := by
    simp only [u]
    split <;> simp [l]
  obtain ⟨hinp, hpins, hreset⟩ := hkept
  obtain ⟨hnone, hsome⟩ := State.leaveBinding_by_delivery (u := u) (i := i) (congrArg (fun x : Slot => x.prog.source) hslot) hinp
  have hcancel : exec .cancel s = .next (withResult (cancelledRecord (u.leaveBinding i) i) 0x00 0) := by
    rw [exec_cancel_of_active hs ha hactive, State.cancelActive_eq_unbind,
      State.unbind_of_input (by rw [State.slot_setSlot_self]; exact hlaunch)]
  rw [hcancel]
  refine ⟨fun hd => by rw [hnone hd], fun d hd => ?_⟩
  obtain ⟨hleft, hempty⟩ := hsome d hd
  refine ⟨fun h => by rw [hleft h], fun h => ⟨_, exec_rawChange_of_same_pins ?_ ?_, by rw [hempty h]⟩⟩
  · simp [hpins]
  · simp [hreset, hs.1]

/-- Settles O16, by the state of the slot, its binding and the delivery that it leaves. -/
theorem cancelOfRetiringSlot : Obligations.CancelOfRetiringSlot := by
  intro s i hs ha n l u out
  have hslot : u.slot i = { s.slot i with pendingMark := false, disarmMark := true } := State.slot_setSlot_self ..
  obtain ⟨hnone, hsome⟩ := State.leaveBinding_by_delivery (u := u) (i := i) (l := l)
    (congrArg (fun x : Slot => x.prog.source) hslot) rfl
  have hcancel : (s.slot i).state = .retiring → exec .cancel s = .next (withResult
      (if (s.slot i).prog.launch = .input ∧ (s.slot i).disarmMark = false then u.leaveBinding i else u) 0x00 0) := by
    intro hretiring
    rw [exec_cancel_of_retiring hs ha hretiring, State.cancelRetiring_eq]
  refine ⟨fun hretiring hout => ?_, fun hretiring hinput harmed hd => ?_, fun hretiring hinput harmed d hd => ?_,
    fun hunarmed => ?_⟩
  · rw [hcancel hretiring, if_neg (by rcases hout with h | h <;> simp [h])]
  · rw [hcancel hretiring, if_pos ⟨hinput, harmed⟩, hnone hd]
  · rw [hcancel hretiring, if_pos ⟨hinput, harmed⟩]
    obtain ⟨hleft, hempty⟩ := hsome d hd
    refine ⟨fun h => by rw [hleft h], fun h => ⟨_, exec_rawChange_of_same_pins ?_ ?_, by rw [hempty h]⟩⟩
    · simp [u]
    · simp [u, hs.1]
  · rw [exec_cancel hs ha, State.cancelSlot_of_unarmed hunarmed]
    rfl

/-! ### Resets -/

/-- The level of each pin is its bit of the byte of levels (R170). -/
theorem pinLevels_getElem (levels : Byte) (n : InId) : (pinLevels levels)[n] = levels.getLsbD n.val := by
  fin_cases n <;> rfl

@[simp] theorem State.resetWith_slot (pins : Vector Bool 8) (i : SlotId) : (State.resetWith pins).slot i = {} := by
  simp [State.resetWith, State.slot]

@[simp] theorem State.resetWith_out (pins : Vector Bool 8) (n : OutId) : (State.resetWith pins).out n = {} := by
  simp [State.resetWith, State.out]

@[simp] theorem State.resetWith_inp (pins : Vector Bool 8) (n : InId) :
    (State.resetWith pins).inp n = { raw := pins[n], qualified := pins[n] } := by
  simp [State.resetWith, State.inp]

/-- Settles O5: the defaults of each block are its hardware reset values. -/
theorem resetReleaseSetsEveryBlock : Obligations.ResetReleaseSetsEveryBlock := by
  intro levels s
  refine ⟨s.releaseReset levels, rfl, rfl, pinLevels_getElem levels, rfl, rfl, rfl,
    fun i => State.resetWith_slot (pinLevels levels) i, rfl, fun n => State.resetWith_out (pinLevels levels) n, fun n => ?_,
    rfl, rfl, rfl⟩
  have h := State.resetWith_inp (pinLevels levels) n
  rw [pinLevels_getElem] at h
  exact h

end Sys2Proof.Machine
end

section

namespace Sys2Proof.Machine

/-! ### Codes and bytes -/

@[simp] theorem Kind.code_ofCode (b : BitVec 2) : (Kind.ofCode b).code = b := by
  revert b; decide

@[simp] theorem LaunchKind.code_ofCode (b : BitVec 2) : (LaunchKind.ofCode b).code = b := by
  revert b; decide

@[simp] theorem Policy.code_ofCode (b : BitVec 2) : (Policy.ofCode b).code = b := by
  revert b; decide

@[simp] theorem LevelValue.code_ofCode (b : BitVec 2) : (LevelValue.ofCode b).code = b := by
  revert b; decide

@[simp] theorem Report.code_ofCode (b : BitVec 2) : (Report.ofCode b).code = b := by
  revert b; decide

/-! Bytes joined, and a byte taken out of them again (spec/00 section 0.6). -/

section
variable (x y z : Byte)

theorem byteAt_append_low {w : Nat} (v : BitVec w) : byteAt (v ++ z) 0 = z := by
  unfold byteAt
  rw [BitVec.extractLsb'_append_eq_of_add_le (by omega)]
  exact BitVec.extractLsb'_eq_self

theorem byteAt_append_succ {w : Nat} (v : BitVec w) (k : Nat) : byteAt (v ++ z) (k + 1) = byteAt v k := by
  unfold byteAt
  rw [BitVec.extractLsb'_append_eq_of_le (by omega)]
  rfl

theorem byteAt_byte_zero : byteAt x 0 = x := BitVec.extractLsb'_eq_self

theorem byteAt_append24_mid : byteAt (x ++ y ++ z) 1 = y := (byteAt_append_succ z _ 0).trans (byteAt_append_low y x)

theorem byteAt_append24_high : byteAt (x ++ y ++ z) 2 = x :=
  (byteAt_append_succ z _ 1).trans ((byteAt_append_succ y x 0).trans (byteAt_byte_zero x))

theorem byteAt_append16_high : byteAt (x ++ y) 1 = x := (byteAt_append_succ y x 0).trans (byteAt_byte_zero x)

end

theorem append_byteAt24 (v : BitVec 24) : byteAt v 2 ++ byteAt v 1 ++ byteAt v 0 = v := by
  unfold byteAt
  rw [BitVec.extractLsb'_append_extractLsb'_eq_extractLsb' (by rfl),
    BitVec.extractLsb'_append_extractLsb'_eq_extractLsb' (by rfl)]
  exact BitVec.extractLsb'_eq_self

theorem append_byteAt16 (v : BitVec 16) : byteAt v 1 ++ byteAt v 0 = v := by
  unfold byteAt
  rw [BitVec.extractLsb'_append_extractLsb'_eq_extractLsb' (by rfl)]
  exact BitVec.extractLsb'_eq_self

/-- A byte written into a 24-bit quantity reads back there, and its other two bytes stay. -/
@[simp] theorem byteAt_setByte24 {j k : Nat} (hj : j < 3) (hk : k < 3) (v : BitVec 24) (b : Byte) :
    byteAt (setByte24 v k b) j = if j = k then b else byteAt v j := by
  interval_cases k <;> interval_cases j <;> simp [setByte24, byteAt_append_low, byteAt_append24_mid, byteAt_append24_high]

/-- A byte written into a 16-bit quantity reads back there, and its other byte stays. -/
@[simp] theorem byteAt_setByte16 {j k : Nat} (hj : j < 2) (hk : k < 2) (v : BitVec 16) (b : Byte) :
    byteAt (setByte16 v k b) j = if j = k then b else byteAt v j := by
  interval_cases k <;> interval_cases j <;> simp [setByte16, byteAt_append_low, byteAt_append16_high]

/-! ### Programmed fields written and read back -/

/-- F1 joined again from its parts: the bit without an item reads 0. -/
theorem f1_of_bits (b : Byte) : 0#1 ++ BitVec.ofBool (b.getLsbD 6) ++ bits b 4 2 ++ bits b 2 2 ++ bits b 0 2 = b &&& 0x7F := by
  revert b; decide

theorem f2_of_bits (b : Byte) : bits b 6 2 ++ bits b 4 2 ++ BitVec.ofFin (bits b 0 4).toFin = b := by
  revert b; decide

theorem f3_of_bits (b : Byte) :
    0#1 ++ BitVec.ofFin (bits b 4 3).toFin ++ 0#1 ++ BitVec.ofFin (bits b 0 3).toFin = b &&& 0x77 := by
  revert b; decide

/-- A stored byte reads back, but for the bits that carry no item (R2). -/
theorem Program.field_write_same {p q : Program} {f : Nat} {b : Byte} (h : p.write f b = some q) :
    q.field f = if f = 1 then b &&& 0x7F else if f = 3 then b &&& 0x77 else b := by
  unfold Program.write at h
  split at h <;> simp only [reduceCtorEq, Option.some.injEq] at h <;> subst h
  case h_1 => simpa [Program.field, Program.f1] using f1_of_bits b
  case h_2 => simpa [Program.field, Program.f2] using f2_of_bits b
  case h_3 => simpa [Program.field, Program.f3] using f3_of_bits b
  all_goals simp [Program.field]

/-- A write leaves the other fields (R2): the field written and the field read are split as `write` and `field` are, and two that differ
read other items, or other bytes of one quantity. -/
theorem Program.field_write_of_ne {p q : Program} {f g : Nat} {b : Byte} (h : p.write f b = some q) (hg : g ≠ f) :
    q.field g = p.field g := by
  unfold Program.write at h
  split at h <;> simp only [reduceCtorEq, Option.some.injEq] at h <;> subst h
  all_goals
    unfold Program.field Program.f1 Program.f2 Program.f3
    split <;> simp_all

theorem Slot.f0_bits (x : Slot) :
    x.f0.extractLsb' 0 3 = x.state.code ∧ x.f0.extractLsb' 3 3 = 0 ∧ x.f0.getLsbD 6 = x.disarmMark ∧
      x.f0.getLsbD 7 = x.pendingMark := by
  have key : ∀ (a b : Bool) (c : BitVec 3), let v : Byte := BitVec.ofBool a ++ BitVec.ofBool b ++ 0#3 ++ c
    v.extractLsb' 0 3 = c ∧ v.extractLsb' 3 3 = 0 ∧ v.getLsbD 6 = b ∧ v.getLsbD 7 = a := by decide
  exact key _ _ _

theorem Program.f1_bits (p : Program) :
    p.f1.extractLsb' 0 2 = p.kind.code ∧ p.f1.extractLsb' 2 2 = p.launch.code ∧
      p.f1.extractLsb' 4 2 = p.policy.code ∧ p.f1.getLsbD 6 = p.wake ∧ p.f1.getLsbD 7 = false := by
  have key : ∀ (a : Bool) (c d e : BitVec 2), let v : Byte := 0#1 ++ BitVec.ofBool a ++ c ++ d ++ e
    v.extractLsb' 0 2 = e ∧ v.extractLsb' 2 2 = d ∧ v.extractLsb' 4 2 = c ∧ v.getLsbD 6 = a ∧ v.getLsbD 7 = false := by decide
  exact key _ _ _ _

theorem Program.f2_bits (p : Program) :
    (p.f2.extractLsb' 0 4).toNat = p.line.val ∧ p.f2.extractLsb' 4 2 = p.value.code ∧
      p.f2.extractLsb' 6 2 = p.report.code := by
  have key : ∀ (n : Fin 16) (c d : BitVec 2), let v : Byte := d ++ c ++ (BitVec.ofFin n : BitVec 4)
    (v.extractLsb' 0 4).toNat = n.val ∧ v.extractLsb' 4 2 = c ∧ v.extractLsb' 6 2 = d := by decide
  exact key _ _ _

theorem Program.f3_bits (p : Program) :
    (p.f3.extractLsb' 0 3).toNat = p.source.val ∧ p.f3.getLsbD 3 = false ∧
      (p.f3.extractLsb' 4 3).toNat = p.group.val ∧ p.f3.getLsbD 7 = false := by
  have key : ∀ (g n : Fin 8), let v : Byte := 0#1 ++ (BitVec.ofFin g : BitVec 3) ++ 0#1 ++ (BitVec.ofFin n : BitVec 3)
    (v.extractLsb' 0 3).toNat = n.val ∧ v.getLsbD 3 = false ∧ (v.extractLsb' 4 3).toNat = g.val ∧ v.getLsbD 7 = false := by decide
  exact key _ _

/-- Settles O50. -/
theorem actionFieldsPackAndReadBack : Obligations.ActionFieldsPackAndReadBack := by
  refine ⟨fun p q f b h => ⟨Program.field_write_same h, fun g hg => Program.field_write_of_ne h hg⟩, by decide, by decide, by decide,
    by decide, by decide, by decide, fun p => ?_, fun x => ⟨x.f0_bits, x.prog.f1_bits, x.prog.f2_bits, x.prog.f3_bits⟩⟩
  exact ⟨rfl, rfl, rfl, append_byteAt24 p.delay, append_byteAt16 p.width, append_byteAt24 p.period, rfl, rfl⟩

end Sys2Proof.Machine
end

section

namespace Sys2Proof.Machine

/-! ### The record that REC_SEL selects (section 9.3) -/

theorem recordRef_length (n : BitVec 6) : (recordRef n).length = recordLength n.toNat := by
  revert n; decide

theorem recordRef_of_slot {n : BitVec 6} {i : SlotId} (h : n.toNat = i.val) : recordRef n = .action i := by
  unfold recordRef
  rw [dif_pos (by omega)]
  exact congrArg RecordRef.action (Fin.ext h)

theorem recordRef_of_outLine {n : BitVec 6} (hlo : 32 ≤ n.toNat) (hhi : n.toNat < 48) :
    recordRef n = .outLine ⟨n.toNat - 32, by omega⟩ := by
  unfold recordRef
  rw [dif_neg (by omega), dif_pos hhi]

theorem recordRef_of_inLine {n : BitVec 6} {m : InId} (h : n.toNat = 48 + m.val) : recordRef n = .inLine m := by
  unfold recordRef
  rw [dif_neg (by omega), dif_neg (by omega), dif_pos (by omega)]
  exact congrArg RecordRef.inLine (Fin.ext (by simp [h]))

theorem recordRef_of_setup {n : BitVec 6} (h : n.toNat = 56) : recordRef n = .setup := by
  unfold recordRef
  rw [dif_neg (by omega), dif_neg (by omega), dif_neg (by omega), if_pos h]

/-! ### A DATA_WRITE by what its owner answers (R158, R159, R160) -/

theorem State.nextFieldSel_eq (s : State) : s.nextFieldSel =
    if s.port.fieldSel.toNat + 1 < recordLength s.port.recSel.toNat then s.port.fieldSel + 1 else 0 := by
  unfold State.nextFieldSel State.selected
  rw [recordRef_length]

theorem State.fieldInRange_iff (s : State) :
    s.fieldInRange = true ↔ s.port.fieldSel.toNat < recordLength s.port.recSel.toNat := by
  unfold State.fieldInRange State.selected
  rw [recordRef_length, decide_eq_true_iff]

theorem State.dataWrite_of_some {s t : State} {b : Byte} (hr : s.port.fieldSel.toNat < recordLength s.port.recSel.toNat)
    (h : s.writeField s.selected s.port.fieldSel.toNat b = some t) :
    s.dataWrite b = { t with port := { t.port with fieldSel := s.nextFieldSel } } := by
  unfold State.dataWrite
  rw [if_pos ((State.fieldInRange_iff s).2 hr), h]
  rfl

theorem State.dataWrite_of_none {s : State} {b : Byte} (h : s.writeField s.selected s.port.fieldSel.toNat b = none) :
    s.dataWrite b = { s with port := { s.port with
      fieldSel := s.nextFieldSel, flags := { s.port.flags with wrj := true } } } := by
  unfold State.dataWrite
  rw [h, ite_self]
  rfl

theorem State.dataWrite_of_out_of_range {s : State} {b : Byte}
    (h : recordLength s.port.recSel.toNat ≤ s.port.fieldSel.toNat) :
    s.dataWrite b = { s with port := { s.port with
      fieldSel := s.nextFieldSel, flags := { s.port.flags with wrj := true } } } := by
  unfold State.dataWrite
  rw [if_neg fun e => absurd ((State.fieldInRange_iff s).1 e) (by omega)]
  rfl

theorem exec_dataWrite {s : State} (h : s.inReset = false) (b : Byte) : exec (.dataWrite b) s = .next (s.dataWrite b) :=
  congrArg Host.Outcome.next (State.whenOn_of_on h _)

/-! ### What each owner stores -/

theorem Program.write_eq_none {p : Program} {f : Nat} {b : Byte} (h : f = 0 ∨ 14 ≤ f) : p.write f b = none := by
  rcases h with rfl | h
  · rfl
  · obtain ⟨k, rfl⟩ := Nat.exists_eq_add_of_le' h
    rfl

theorem Program.exists_write {p : Program} {f : Nat} {b : Byte} (hlo : 1 ≤ f) (hhi : f ≤ 13) : ∃ q, p.write f b = some q := by
  interval_cases f <;> exact ⟨_, rfl⟩

theorem Slot.write_of_unarmed {x : Slot} (h : x.state = .free ∨ x.state = .held) (f : Nat) (b : Byte) :
    x.write f b = (x.prog.write f b).map fun p => { x with prog := p, state := .held } := by
  unfold Slot.write
  rcases h with h | h <;> rw [h]

theorem Slot.write_eq_none {x : Slot} {f : Nat} {b : Byte} (h : f = 0 ∨ 14 ≤ f ∨ (x.state ≠ .free ∧ x.state ≠ .held)) :
    x.write f b = none := by
  by_cases hs : x.state = .free ∨ x.state = .held
  · rw [Slot.write_of_unarmed hs, Program.write_eq_none (by tauto)]
    rfl
  · unfold Slot.write
    cases hx : x.state <;> simp [hx] at hs ⊢

theorem InLine.write_eq_none {l : InLine} {f : Nat} {b : Byte} (h : 2 ≤ f) : l.write f b = none := by
  obtain ⟨k, rfl⟩ := Nat.exists_eq_add_of_le' h
  rfl

theorem TimeBase.stepWritable_iff (t : TimeBase) : t.stepWritable = true ↔ t.state = .stopped ∨ t.state = .running := by
  simp [TimeBase.stepWritable]

/-- Settles O48, by the record that REC_SEL selects and the field that FIELD_SEL selects in it. -/
theorem dataWriteStoresOrRejects : Obligations.DataWriteStoresOrRejects := by
  intro b s hon r f next moved rejected
  have hnext : s.nextFieldSel = next := State.nextFieldSel_eq s
  have reject : s.writeField s.selected f b = none → exec (.dataWrite b) s = .next rejected := by
    intro h
    rw [exec_dataWrite hon, State.dataWrite_of_none h, hnext]
  have store : ∀ t, f < recordLength r → s.writeField s.selected f b = some t → exec (.dataWrite b) s = .next (moved t) := by
    intro t hr h
    rw [exec_dataWrite hon, State.dataWrite_of_some hr h, hnext]
  refine ⟨fun h => ?_, fun i hi => ?_, fun hlo hhi => ?_, fun n hn => ?_, fun hsetup => ?_⟩
  · rw [exec_dataWrite hon, State.dataWrite_of_out_of_range h, hnext]
  · have hsel : s.selected = .action i := recordRef_of_slot hi
    have hlen : recordLength r = 18 := if_pos (by omega)
    refine ⟨fun h => reject ?_, fun hlo hhi hstate => ?_⟩
    · rw [hsel]
      simp [State.writeField, Slot.write_eq_none h]
    · obtain ⟨p, hp⟩ := Program.exists_write (p := (s.slot i).prog) (b := b) hlo hhi
      refine ⟨p, hp, store _ (by omega) ?_⟩
      rw [hsel]
      simp [State.writeField, Slot.write_of_unarmed hstate, hp]
  · refine reject ?_
    have hsel : s.selected = .outLine _ := recordRef_of_outLine hlo hhi
    rw [hsel]
    rfl
  · have hsel : s.selected = .inLine n := recordRef_of_inLine hn
    have hlen : recordLength r = 6 := by
      unfold recordLength
      rw [if_neg (by omega), if_neg (by omega), if_pos (by omega)]
    refine ⟨fun h => reject ?_, fun h => store _ (by omega) ?_, fun h => store _ (by omega) ?_⟩
    · rw [hsel]
      simp [State.writeField, InLine.write_eq_none h]
    · rw [hsel, h]
      rfl
    · rw [hsel, h]
      rfl
  · have hsel : s.selected = .setup := recordRef_of_setup hsetup
    have hlen : recordLength r = 5 := by rw [hsetup]; rfl
    have hw : s.writeField s.selected f b = s.writeSetup f b := by rw [hsel]; rfl
    rw [hw] at reject store
    refine ⟨fun h => reject ?_, fun h ht => store _ (by omega) ?_, fun h ht => store _ (by omega) ?_,
      fun h ht => store _ (by omega) ?_, fun h => store _ (by omega) ?_⟩
    · rcases h with h | ⟨h, ht⟩ | ⟨h | h, ht⟩ <;> rw [h]
      · rfl
      · simp [State.writeSetup, ht]
      · rcases ht with ht | ht <;> simp [State.writeSetup, TimeBase.stepWritable, ht]
      · rcases ht with ht | ht <;> simp [State.writeSetup, TimeBase.stepWritable, ht]
    · rw [h]
      simp [State.writeSetup, ht]
    · rw [h]
      simp [State.writeSetup, (TimeBase.stepWritable_iff _).2 ht, setByte16, byteAt]
    · rw [h]
      simp [State.writeSetup, (TimeBase.stepWritable_iff _).2 ht, setByte16, byteAt]
    · rw [h]
      rfl

end Sys2Proof.Machine
end

section
/-! The laws between slots and collections, taken apart: what the collections owe by themselves (`Shape`), and what each slot owes
to its place in them (`Placed`). An event takes a slot out of its places, changes it and puts it in again; meanwhile the laws hold
for all other slots (`Laws o (some i)`). -/

namespace Sys2Proof.Machine

/-! ### The laws, slot by slot -/

/-- What the middle of an event still owes to the laws: the further releases of a FLUSH (R127), or the completion of the delivery of a
line that the event may have emptied (R107). -/
inductive Owed where
  | nothing
  | releases
  | completion (n : InId)

/-- The laws of the collections by themselves (R41, R83, R105, R107, R110, R118, R122). -/
structure Shape (o : Owed) (s : State) : Prop where
  due : (s.due.map Entry.slot).Nodup
  claims : ∀ n : OutId, (s.out n).claims.length ≤ 4 ∧ ((s.out n).claims.map Claim.slot).Nodup
  queue : s.report.queue.length ≤ 16
  backlog : s.report.retire ≠ [] → s.report.queue.length = 16 ∨ o = .releases
  retire : s.report.retire.Nodup
  binding : ∀ n : InId, (s.inp n).binding.Nodup
  delivery : ∀ n : InId, ∀ d ∈ (s.inp n).delivery,
    (d.slots ≠ [] ∨ o = .completion n) ∧ d.slots.Nodup ∧ ∀ i ∈ d.slots, i ∈ (s.inp n).binding

/-- The laws of slot `i` with content `x`: by itself, and against its places in the collections (R41, R83, R84, R110, R122). -/
structure Placed (s : State) (i : SlotId) (x : Slot) : Prop where
  law : SlotLaw x
  entry : ∀ e ∈ s.due, e.slot = i → x.state = if e.purpose = .start then .waiting else .driving
  running : x.state = .waiting ∨ x.state = .driving → i ∈ s.due.map Entry.slot
  claim : ∀ n : OutId, ∀ c ∈ (s.out n).claims, c.slot = i →
    x.state = .driving ∧ x.prog.line = n ∧ c.level = decide (x.prog.value = .high)
  driving : x.state = .driving → i ∈ (s.out x.prog.line).claims.map Claim.slot
  retiring : i ∈ s.report.retire ↔ x.state = .retiring
  bound : ∀ n : InId, i ∈ (s.inp n).binding ↔ x.prog.launch = .input ∧ x.prog.source = n ∧ x.armed = true

/-- The laws in the middle of an event, for all slots but the one that is out of its places. -/
structure Laws (o : Owed) (out : Option SlotId) (s : State) : Prop where
  shape : Shape o s
  placed : ∀ j : SlotId, out ≠ some j → Placed s j (s.slot j)

/-- Between events nothing is owed and every slot is in its places. -/
theorem consistent_iff (s : State) : Consistent s ↔ Laws .nothing none s := by
  constructor
  · rintro ⟨hslots, ⟨hnodup, hentry, hrunning⟩, ⟨hclaims, hdriving⟩, ⟨hqueue, hbacklog, hretire, hretiring⟩, hbinding⟩
    refine ⟨⟨hnodup, fun n => ⟨(hclaims n).1, (hclaims n).2.1⟩, hqueue, fun h => .inl (hbacklog h), hretire,
      fun n => (hbinding n).1, fun n d hd => ?_⟩, fun j _ => ⟨hslots j, ?_, hrunning j, ?_, hdriving j, hretiring j,
      fun n => (hbinding n).2.1 j⟩⟩
    · obtain ⟨hne, hnd, hsub⟩ := (hbinding n).2.2 d (by simpa using hd)
      exact ⟨.inl hne, hnd, hsub⟩
    · rintro e he rfl
      exact hentry e he
    · rintro n c hc rfl
      exact (hclaims n).2.2 c hc
  · rintro ⟨hshape, hplaced⟩
    have hp : ∀ j, Placed s j (s.slot j) := fun j => hplaced j nofun
    refine ⟨fun j => (hp j).law, ⟨hshape.due, fun e he => (hp e.slot).entry e he rfl, fun j => (hp j).running⟩,
      ⟨fun n => ⟨(hshape.claims n).1, (hshape.claims n).2, fun c hc => (hp c.slot).claim n c hc rfl⟩, fun j => (hp j).driving⟩,
      ⟨hshape.queue, fun h => (hshape.backlog h).resolve_right nofun, hshape.retire, fun j => (hp j).retiring⟩,
      fun n => ⟨hshape.binding n, fun j => (hp j).bound n, fun d hd => ?_⟩⟩
    obtain ⟨hne, hnd, hsub⟩ := hshape.delivery n d (by simpa using hd)
    exact ⟨hne.resolve_right nofun, hnd, hsub⟩

/-- What owes nothing owes no more than what is named. -/
theorem Shape.mono {o : Owed} {s : State} (h : Shape .nothing s) : Shape o s where
  due := h.due
  claims := h.claims
  queue := h.queue
  backlog hr := .inl ((h.backlog hr).resolve_right nofun)
  retire := h.retire
  binding := h.binding
  delivery n d hd := by
    obtain ⟨hne, hnd, hsub⟩ := h.delivery n d hd
    exact ⟨.inl (hne.resolve_right nofun), hnd, hsub⟩

theorem Laws.mono {o : Owed} {out : Option SlotId} {s : State} (h : Laws .nothing out s) : Laws o out s :=
  ⟨h.shape.mono, h.placed⟩

theorem Laws.placedAt {o : Owed} {s : State} (h : Laws o none s) (i : SlotId) : Placed s i (s.slot i) := h.placed i nofun

/-- The laws for all slots are the laws for all but one. -/
theorem Laws.takeOut {o : Owed} {s : State} (h : Laws o none s) (i : SlotId) : Laws o (some i) s :=
  ⟨h.shape, fun j _ => h.placedAt j⟩

/-- The slot that was out of its places is in them again. -/
theorem Laws.putBack {o : Owed} {s : State} {i : SlotId} (h : Laws o (some i) s) (hi : Placed s i (s.slot i)) : Laws o none s := by
  refine ⟨h.shape, fun j _ => ?_⟩
  by_cases hj : j = i
  · subst hj; exact hi
  · exact h.placed j (by simpa using Ne.symm hj)

/-! ### Places that agree -/

/-- Two states have the same places of one slot. -/
structure SamePlaces (s t : State) (i : SlotId) : Prop where
  due : ∀ e : Entry, e.slot = i → (e ∈ t.due ↔ e ∈ s.due)
  claims : ∀ (n : OutId) (c : Claim), c.slot = i → (c ∈ (t.out n).claims ↔ c ∈ (s.out n).claims)
  retire : i ∈ t.report.retire ↔ i ∈ s.report.retire
  binding : ∀ n : InId, i ∈ (t.inp n).binding ↔ i ∈ (s.inp n).binding

theorem SamePlaces.mem_due {s t : State} {i : SlotId} (h : SamePlaces s t i) :
    i ∈ t.due.map Entry.slot ↔ i ∈ s.due.map Entry.slot := by
  simp only [List.mem_map]
  exact exists_congr fun e => and_congr_left fun he => h.due e he

theorem SamePlaces.mem_claims {s t : State} {i : SlotId} (h : SamePlaces s t i) (n : OutId) :
    i ∈ (t.out n).claims.map Claim.slot ↔ i ∈ (s.out n).claims.map Claim.slot := by
  simp only [List.mem_map]
  exact exists_congr fun c => and_congr_left fun hc => h.claims n c hc

/-- The laws of a slot rest on its own places. -/
theorem Placed.of_samePlaces {s t : State} {i : SlotId} {x : Slot} (h : SamePlaces s t i) (hx : Placed s i x) : Placed t i x where
  law := hx.law
  entry e he hi := hx.entry e ((h.due e hi).1 he) hi
  running hr := h.mem_due.2 (hx.running hr)
  claim n c hc hi := hx.claim n c ((h.claims n c hi).1 hc) hi
  driving hd := (h.mem_claims _).2 (hx.driving hd)
  retiring := h.retire.trans hx.retiring
  bound n := (h.binding n).trans (hx.bound n)

/-- A change that moves no slot but one keeps the laws of all others, if the collections keep theirs. -/
theorem Laws.move {o o' : Owed} {s t : State} {i : SlotId} (h : Laws o (some i) s) (hshape : Shape o' t)
    (hslot : ∀ j, j ≠ i → t.slot j = s.slot j) (hplaces : ∀ j, j ≠ i → SamePlaces s t j) : Laws o' (some i) t := by
  refine ⟨hshape, fun j hj => ?_⟩
  have hne : j ≠ i := by rintro rfl; exact hj rfl
  rw [hslot j hne]
  exact (h.placed j hj).of_samePlaces (hplaces j hne)

/-! ### Changes that move no slot -/

/-- The second state differs from the first in no slot, entry, claim or place of the retire list. -/
structure KeepsRuns (s t : State) : Prop where
  slot : ∀ i : SlotId, t.slot i = s.slot i
  due : t.due = s.due
  claims : ∀ n : OutId, (t.out n).claims = (s.out n).claims
  retire : t.report.retire = s.report.retire

/-- Nor does it differ in a binding list; and its collections meet their laws, with what is now owed, if the first state's do. -/
structure KeepsPlaces (o o' : Owed) (s t : State) : Prop extends KeepsRuns s t where
  binding : ∀ n : InId, (t.inp n).binding = (s.inp n).binding
  shape : Shape o s → Shape o' t

theorem KeepsRuns.refl (s : State) : KeepsRuns s s := ⟨fun _ => rfl, rfl, fun _ => rfl, rfl⟩

theorem KeepsRuns.trans {s t u : State} (h₁ : KeepsRuns s t) (h₂ : KeepsRuns t u) : KeepsRuns s u where
  slot i := (h₂.slot i).trans (h₁.slot i)
  due := h₂.due.trans h₁.due
  claims n := (h₂.claims n).trans (h₁.claims n)
  retire := h₂.retire.trans h₁.retire

theorem KeepsPlaces.refl (o : Owed) (s : State) : KeepsPlaces o o s s := ⟨.refl s, fun _ => rfl, id⟩

theorem KeepsPlaces.trans {o₁ o₂ o₃ : Owed} {s t u : State} (h₁ : KeepsPlaces o₁ o₂ s t) (h₂ : KeepsPlaces o₂ o₃ t u) :
    KeepsPlaces o₁ o₃ s u :=
  ⟨h₁.toKeepsRuns.trans h₂.toKeepsRuns, fun n => (h₂.binding n).trans (h₁.binding n), h₂.shape ∘ h₁.shape⟩

theorem KeepsPlaces.samePlaces {o o' : Owed} {s t : State} (h : KeepsPlaces o o' s t) (i : SlotId) : SamePlaces s t i where
  due e _ := by rw [h.due]
  claims n c _ := by rw [h.claims n]
  retire := by rw [h.retire]
  binding n := by rw [h.binding n]

theorem Laws.keep {o o' : Owed} {out : Option SlotId} {s t : State} (h : Laws o out s) (hk : KeepsPlaces o o' s t) :
    Laws o' out t := by
  refine ⟨hk.shape h.shape, fun j hj => ?_⟩
  rw [hk.slot j]
  exact (h.placed j hj).of_samePlaces (hk.samePlaces j)

theorem Consistent.keep {s t : State} (h : Consistent s) (hk : KeepsPlaces .nothing .nothing s t) : Consistent t :=
  (consistent_iff t).2 (((consistent_iff s).1 h).keep hk)

/-- What a change that moves no slot has to show of the collections: the queue and the deliveries. -/
theorem KeepsPlaces.of_keepsRuns {o o' : Owed} {s t : State} (h : KeepsRuns s t) (hb : ∀ n : InId, (t.inp n).binding = (s.inp n).binding)
    (hq : Shape o s → t.report.queue.length ≤ 16 ∧ (s.report.retire ≠ [] → t.report.queue.length = 16 ∨ o' = .releases))
    (hd : Shape o s → ∀ n : InId, ∀ d ∈ (t.inp n).delivery,
      (d.slots ≠ [] ∨ o' = .completion n) ∧ d.slots.Nodup ∧ ∀ i ∈ d.slots, i ∈ (s.inp n).binding) : KeepsPlaces o o' s t := by
  refine ⟨h, hb, fun hs => ⟨?_, fun n => ?_, (hq hs).1, ?_, ?_, fun n => ?_, fun n => ?_⟩⟩
  · rw [h.due]; exact hs.due
  · rw [h.claims n]; exact hs.claims n
  · rw [h.retire]; exact (hq hs).2
  · rw [h.retire]; exact hs.retire
  · rw [hb n]; exact hs.binding n
  · rw [hb n]; exact hd hs n

/-- A change outside the collections. -/
theorem KeepsPlaces.of_eq {o : Owed} {s t : State} (hslots : t.slots = s.slots) (hdue : t.due = s.due)
    (hclaims : ∀ n : OutId, (t.out n).claims = (s.out n).claims)
    (hins : ∀ n : InId, (t.inp n).binding = (s.inp n).binding ∧ (t.inp n).delivery = (s.inp n).delivery)
    (hqueue : t.report.queue = s.report.queue) (hretire : t.report.retire = s.report.retire) : KeepsPlaces o o s t := by
  refine .of_keepsRuns ⟨State.slot_congr hslots, hdue, hclaims, hretire⟩ (fun n => (hins n).1) (fun hs => ?_) fun hs n => ?_
  · rw [hqueue]; exact ⟨hs.queue, hs.backlog⟩
  · rw [(hins n).2]; exact hs.delivery n

/-- A change of other items of the state (time base, command unit, host port, pins and the queue of commands). -/
theorem KeepsPlaces.of_other_items {o : Owed} {s t : State} (hslots : t.slots = s.slots) (hdue : t.due = s.due)
    (houts : t.outs = s.outs) (hins : t.ins = s.ins) (hreport : t.report = s.report) : KeepsPlaces o o s t :=
  .of_eq hslots hdue (fun n => by rw [State.out_congr houts]) (fun n => by rw [State.inp_congr hins]; exact ⟨rfl, rfl⟩)
    (by rw [hreport]) (by rw [hreport])

/-- A non-final record keeps every place (R119). -/
theorem keepsPlaces_recorded (o : Owed) (s : State) (r : Record) : KeepsPlaces o o s (recorded s r) := by
  refine .of_keepsRuns ⟨recorded_slot s r, recorded_due s r, fun n => by rw [recorded_out], recorded_retire s r⟩
    (fun n => by rw [recorded_inp]) (fun hs => ⟨recorded_queue_length_le s r hs.queue, fun hr => ?_⟩) fun hs n => ?_
  · exact (hs.backlog hr).imp_left fun hfull => (congrArg List.length (recorded_queue_of_full s r hfull)).trans hfull
  · rw [recorded_inp]; exact hs.delivery n

/-- An input line written with the same binding list, and a delivery of slots that stand in it. -/
theorem keepsPlaces_setInp {o o' : Owed} {s : State} {n : InId} {l : InLine} (ho : o = .nothing ∨ o = .completion n)
    (hb : l.binding = (s.inp n).binding)
    (hd : Shape o s → ∀ d ∈ l.delivery, (d.slots ≠ [] ∨ o' = .completion n) ∧ d.slots.Nodup ∧ ∀ i ∈ d.slots, i ∈ (s.inp n).binding) :
    KeepsPlaces o o' s (s.setInp n l) := by
  refine .of_keepsRuns ⟨fun _ => rfl, rfl, fun _ => rfl, rfl⟩ (fun m => ?_) (fun hs => ⟨hs.queue, fun hr => .inl ?_⟩) fun hs m => ?_
  · rw [State.inp_setInp]; split
    · next h => subst h; exact hb
    · rfl
  · exact (hs.backlog hr).resolve_right (by rcases ho with rfl | rfl <;> nofun)
  · rw [State.inp_setInp]; split
    · next h => subst h; exact hd hs
    · next h =>
      intro d hmem
      obtain ⟨hne, hrest⟩ := hs.delivery m d hmem
      refine ⟨.inl (hne.resolve_right ?_), hrest⟩
      rcases ho with rfl | rfl
      · nofun
      · rintro ⟨⟩; exact h rfl

/-- An input line written with its binding list and its delivery kept. -/
theorem keepsPlaces_setInp_same {o : Owed} {s : State} {n : InId} {l : InLine} (hb : l.binding = (s.inp n).binding)
    (hd : l.delivery = (s.inp n).delivery) : KeepsPlaces o o s (s.setInp n l) := by
  refine .of_eq rfl rfl (fun _ => rfl) (fun m => ?_) rfl rfl
  rw [State.inp_setInp]; split
  · next h => subst h; exact ⟨hb, hd⟩
  · exact ⟨rfl, rfl⟩

end Sys2Proof.Machine
end

section
/-! A slot taken out of its places and put in again: the due list, the claim stacks and the retire list (R41, R42, R83, R87, R121). -/

namespace Sys2Proof.Machine

/-! ### A slot by itself -/

/-- What a slot keeps through its run: fields that ARM accepts, no disarm mark, no held record, no pending mark under RESTART, and
OCCURRENCES short of a nonzero COUNT (R7, R11, R16, R72). -/
structure Slot.InRun (x : Slot) : Prop where
  disarm : x.disarmMark = false
  held : x.held = none
  passes : PassesArm x.prog
  restart : x.pendingMark = true → x.prog.policy ≠ .restart
  count : x.prog.count ≠ 0 → x.occurrences.toNat < x.prog.count.toNat

/-- What a slot keeps from ARM to its cancel or the end of its run, where OCCURRENCES may have come to COUNT (R7). -/
structure Slot.Fit (x : Slot) : Prop where
  disarm : x.disarmMark = false
  held : x.held = none
  passes : PassesArm x.prog
  count : x.prog.count ≠ 0 → x.occurrences.toNat ≤ x.prog.count.toNat

theorem SlotLaw.of_inRun {x : Slot} (h : x.InRun) (hs : x.state = .waiting ∨ x.state = .driving) : SlotLaw x := by
  refine ⟨?_, ?_, fun _ => hs.imp_right .inl, fun hp hr => absurd hr (h.restart hp), ?_, fun _ _ => h.passes, ?_,
    fun _ _ hc => (h.count hc).le, fun _ => h.count⟩
  all_goals rcases hs with hs | hs <;> simp [hs, h.disarm, h.held]

/-- A HELD slot has no marks and no held record (R1, R11). -/
theorem SlotLaw.held {x : Slot} (hs : x.state = .held) (hdisarm : x.disarmMark = false) (hpending : x.pendingMark = false)
    (hheld : x.held = none) : SlotLaw x := by
  simp [SlotLaw, hs, hdisarm, hpending, hheld]

/-- A BOUND slot is not ONCE (R70). -/
theorem SlotLaw.bound {x : Slot} (hs : x.state = .bound) (hdisarm : x.disarmMark = false) (hpending : x.pendingMark = false)
    (hheld : x.held = none) (hpasses : PassesArm x.prog) (honce : x.prog.launch ≠ .once)
    (hcount : x.prog.count ≠ 0 → x.occurrences.toNat ≤ x.prog.count.toNat) : SlotLaw x := by
  refine ⟨?_, ?_, ?_, ?_, ?_, fun _ _ => hpasses, fun _ => honce, fun _ _ => hcount, ?_⟩
  all_goals simp [hs, hdisarm, hpending, hheld]

/-- A RETIRING slot holds its record; a disarmed one is not pending (R1, R11). -/
theorem SlotLaw.retiring {x : Slot} (hs : x.state = .retiring) (hmarks : x.pendingMark = true → x.disarmMark = false)
    (hheld : x.held.isSome = true) (hpasses : PassesArm x.prog)
    (hcount : x.prog.count ≠ 0 → x.occurrences.toNat ≤ x.prog.count.toNat) : SlotLaw x := by
  refine ⟨?_, fun _ => hs, fun hp => .inr (.inr ⟨hs, hmarks hp⟩), fun _ _ => hs, ?_, fun _ _ => hpasses, ?_, fun _ _ => hcount, ?_⟩
  all_goals simp [hs, hheld]

/-- A slot that is not RETIRING has no disarm mark and no held record (R1, R11). -/
theorem SlotLaw.not_retiring {x : Slot} (h : SlotLaw x) (hs : x.state ≠ .retiring) : x.disarmMark = false ∧ x.held = none := by
  obtain ⟨-, hdisarm, -, -, hheld, -⟩ := h
  constructor
  · simpa using mt hdisarm hs
  · simpa using mt hheld.1 hs

/-- A BOUND, WAITING or DRIVING slot is fit. -/
theorem SlotLaw.fit {x : Slot} (h : SlotLaw x) (hs : x.state = .bound ∨ x.state = .waiting ∨ x.state = .driving) : x.Fit := by
  have hfree : x.state ≠ .free := by rcases hs with hs | hs | hs <;> simp [hs]
  have hunheld : x.state ≠ .held := by rcases hs with hs | hs | hs <;> simp [hs]
  obtain ⟨hdisarm, hheld⟩ := h.not_retiring (by rcases hs with hs | hs | hs <;> simp [hs])
  obtain ⟨-, -, -, -, -, hpasses, -, hcount, -⟩ := h
  exact ⟨hdisarm, hheld, hpasses hfree hunheld, hcount hfree hunheld⟩

/-- A WAITING or DRIVING slot is in its run. -/
theorem SlotLaw.inRun {x : Slot} (h : SlotLaw x) (hs : x.state = .waiting ∨ x.state = .driving) : x.InRun := by
  have hfit := h.fit (.inr hs)
  obtain ⟨-, -, -, hrestart, -, -, -, -, hcount⟩ := h
  refine ⟨hfit.disarm, hfit.held, hfit.passes, fun hp hr => ?_, hcount hs⟩
  have := hrestart hp hr
  rcases hs with hs | hs <;> simp [hs] at this

/-- A slot at rest is not pending (R11). -/
theorem SlotLaw.not_pending {x : Slot} (h : SlotLaw x) (hs : x.state = .free ∨ x.state = .held ∨ x.state = .bound) :
    x.pendingMark = false := by
  obtain ⟨-, -, hpending, -⟩ := h
  rw [← Bool.not_eq_true]
  intro hp
  rcases hpending hp with h | h | ⟨h, -⟩ <;> rcases hs with hs | hs | hs <;> simp [hs] at h

/-- What a RETIRING slot keeps. -/
theorem SlotLaw.of_retiring {x : Slot} (h : SlotLaw x) (hs : x.state = .retiring) :
    (x.pendingMark = true → x.disarmMark = false) ∧ x.held.isSome = true ∧ PassesArm x.prog ∧
      (x.prog.count ≠ 0 → x.occurrences.toNat ≤ x.prog.count.toNat) := by
  obtain ⟨-, -, hpending, -, hheld, hpasses, -, hcount, -⟩ := h
  have hfree : x.state ≠ .free := by simp [hs]
  have hunheld : x.state ≠ .held := by simp [hs]
  refine ⟨fun hp => ?_, hheld.2 hs, hpasses hfree hunheld, hcount hfree hunheld⟩
  rcases hpending hp with h | h | ⟨-, h⟩
  · simp [hs] at h
  · simp [hs] at h
  · exact h

/-! ### Out of every place -/

/-- The slot has no entry, no claim and no place in the retire list. -/
structure Absent (s : State) (i : SlotId) : Prop where
  due : i ∉ s.due.map Entry.slot
  claims : ∀ n : OutId, i ∉ (s.out n).claims.map Claim.slot
  retire : i ∉ s.report.retire

theorem Absent.keep {s t : State} {i : SlotId} (h : Absent s i) (hk : KeepsRuns s t) : Absent t i := by
  refine ⟨?_, fun n => ?_, ?_⟩
  · rw [hk.due]; exact h.due
  · rw [hk.claims n]; exact h.claims n
  · rw [hk.retire]; exact h.retire

theorem Absent.ne_entry {s : State} {i : SlotId} (h : Absent s i) {e : Entry} (he : e ∈ s.due) : e.slot ≠ i := by
  rintro rfl
  exact h.due (List.mem_map_of_mem he)

theorem Absent.ne_claim {s : State} {i : SlotId} (h : Absent s i) {n : OutId} {c : Claim} (hc : c ∈ (s.out n).claims) : c.slot ≠ i := by
  rintro rfl
  exact h.claims n (List.mem_map_of_mem hc)

/-- A slot that neither runs nor retires has no place to leave. -/
theorem Placed.absent {s : State} {i : SlotId} {x : Slot} (h : Placed s i x)
    (hs : x.state = .free ∨ x.state = .held ∨ x.state = .bound) : Absent s i := by
  have hw : x.state ≠ .waiting := by rcases hs with hs | hs | hs <;> simp [hs]
  have hd : x.state ≠ .driving := by rcases hs with hs | hs | hs <;> simp [hs]
  have hr : x.state ≠ .retiring := by rcases hs with hs | hs | hs <;> simp [hs]
  refine ⟨fun hi => ?_, fun n hi => ?_, fun hi => hr (h.retiring.1 hi)⟩
  · obtain ⟨e, he, rfl⟩ := List.mem_map.1 hi
    have := h.entry e he rfl
    split at this
    · exact hw this
    · exact hd this
  · obtain ⟨c, hc, rfl⟩ := List.mem_map.1 hi
    exact hd (h.claim n c hc rfl).1

/-- The slot of an armed program: it is in the binding list of its SOURCE if it is an INPUT slot, and in no other (R110). -/
abbrev BoundBy (s : State) (i : SlotId) (p : Program) : Prop :=
  ∀ n : InId, i ∈ (s.inp n).binding ↔ p.launch = .input ∧ p.source = n

theorem Placed.boundBy {s : State} {i : SlotId} {x : Slot} (h : Placed s i x) (harmed : x.armed = true) : BoundBy s i x.prog := by
  intro n
  rw [h.bound n]
  simp [harmed]

theorem Placed.not_bound {s : State} {i : SlotId} {x : Slot} (h : Placed s i x) (harmed : x.armed = false) (n : InId) :
    i ∉ (s.inp n).binding := by
  rw [h.bound n]
  simp [harmed]

theorem Slot.armed_of_active {x : Slot} (h : x.state = .bound ∨ x.state = .waiting ∨ x.state = .driving) : x.armed = true := by
  rcases h with h | h | h <;> simp [Slot.armed, h]

theorem Slot.armed_of_unarmed {x : Slot} (h : x.state = .free ∨ x.state = .held) : x.armed = false := by
  rcases h with h | h <;> simp [Slot.armed, h]

/-! ### Taking a slot out -/

section
variable {o : Owed} {s : State} {i : SlotId}

/-- The content of a slot that is out of its places does not matter. -/
theorem Laws.setSlot (h : Laws o (some i) s) (x : Slot) : Laws o (some i) (s.setSlot i x) :=
  h.move ⟨h.shape.due, h.shape.claims, h.shape.queue, h.shape.backlog, h.shape.retire, h.shape.binding, h.shape.delivery⟩
    (fun _ hj => State.slot_setSlot_of_ne s x hj) fun _ _ => ⟨fun _ _ => .rfl, fun _ _ _ => .rfl, .rfl, fun _ => .rfl⟩

theorem Absent.setSlot (h : Absent s i) (x : Slot) : Absent (s.setSlot i x) i := ⟨h.due, h.claims, h.retire⟩

/-- A removal from the due list (R42). -/
theorem Laws.removeDue (h : Laws o (some i) s) : Laws o (some i) (s.removeDue i) := by
  refine h.move ⟨?_, h.shape.claims, h.shape.queue, h.shape.backlog, h.shape.retire, h.shape.binding, h.shape.delivery⟩
    (fun _ _ => rfl) fun j hj => ⟨fun e he => ?_, fun _ _ _ => .rfl, .rfl, fun _ => .rfl⟩
  · exact h.shape.due.sublist (List.filter_sublist.map _)
  · subst he
    simp [State.removeDue, hj]

/-- The slot has no entry after a removal. -/
theorem State.not_mem_removeDue (s : State) (i : SlotId) : i ∉ (s.removeDue i).due.map Entry.slot := by
  simp [State.removeDue]

/-- The head handed over is the removal of its slot's entry: there is at most one (R41, R47). -/
theorem State.removeDue_head {e : Entry} {rest : List Entry} (hs : s.due = e :: rest) (h : (s.due.map Entry.slot).Nodup) :
    s.removeDue e.slot = { s with due := rest } := by
  rw [hs, List.map_cons, List.nodup_cons] at h
  unfold State.removeDue
  rw [hs, List.filter_cons_of_neg (by simp), List.filter_eq_self.2]
  intro e' he'
  simpa using fun hslot : e'.slot = e.slot => h.1 (hslot ▸ List.mem_map_of_mem he')

/-- A claim leaves the stack of the slot's LINE; the other stacks stay (R87). -/
theorem State.removeClaim_claims (s : State) (i : SlotId) (n : OutId) : ((s.removeClaim i).out n).claims =
    if n = (s.slot i).prog.line then (s.out n).claims.filter fun c => c.slot != i else (s.out n).claims := by
  unfold State.removeClaim
  rw [State.out_setOut]
  split
  · next h => subst h; rfl
  · rfl

theorem Laws.removeClaim (h : Laws o (some i) s) : Laws o (some i) (s.removeClaim i) := by
  refine h.move ⟨h.shape.due, fun n => ?_, h.shape.queue, h.shape.backlog, h.shape.retire, h.shape.binding, h.shape.delivery⟩
    (fun _ _ => rfl) fun j hj => ⟨fun _ _ => .rfl, fun n c hc => ?_, .rfl, fun _ => .rfl⟩
  · obtain ⟨hlen, hnd⟩ := h.shape.claims n
    rw [State.removeClaim_claims]
    split
    · exact ⟨(List.length_filter_le _ _).trans hlen, hnd.sublist (List.filter_sublist.map _)⟩
    · exact ⟨hlen, hnd⟩
  · subst hc
    rw [State.removeClaim_claims]
    split <;> simp [hj]

/-- The claim of a DRIVING slot stands in the stack of its LINE alone, so that it has none after a removal (R84, R87). -/
theorem State.not_mem_removeClaim {x : Slot} (h : Placed s i x) (hline : x.prog.line = (s.slot i).prog.line) (n : OutId) :
    i ∉ ((s.removeClaim i).out n).claims.map Claim.slot := by
  rw [State.removeClaim_claims]
  split
  · simp
  · next hn =>
    rintro hi
    obtain ⟨c, hc, rfl⟩ := List.mem_map.1 hi
    exact hn ((h.claim n c hc rfl).2.1.symm.trans hline)

/-- A run that stops leaves the due list and the claim stacks (R18 step 1, R72 steps 1 and 2). -/
theorem Laws.stopRun (h : Laws o (some i) s) : Laws o (some i) (s.stopRun i) := by
  unfold State.stopRun
  split
  · exact h.removeDue.removeClaim
  · exact h.removeDue

theorem absent_stopRun (h : Placed s i (s.slot i)) (hs : (s.slot i).state = .waiting ∨ (s.slot i).state = .driving) :
    Absent (s.stopRun i) i := by
  have hret : i ∉ s.report.retire := by
    rw [h.retiring]
    rcases hs with hs | hs <;> simp [hs]
  unfold State.stopRun
  split
  · exact ⟨State.not_mem_removeDue s i, (State.not_mem_removeClaim (s := s) h rfl :), hret⟩
  · next hd =>
    refine ⟨State.not_mem_removeDue s i, fun n hi => ?_, hret⟩
    obtain ⟨c, hc, rfl⟩ := List.mem_map.1 hi
    exact hd (by simp [(h.claim n c hc rfl).1])

@[simp] theorem State.stopRun_slot (j : SlotId) : (s.stopRun i).slot j = s.slot j := by
  unfold State.stopRun; split <;> rfl

@[simp] theorem State.stopRun_inp (n : InId) : (s.stopRun i).inp n = s.inp n := by
  unfold State.stopRun; split <;> rfl

/-! ### Putting a slot in -/

/-- A slot at rest, FREE, HELD or BOUND, has no place but in a binding list. -/
theorem Laws.rest (h : Laws o (some i) s) (ha : Absent s i) {x : Slot} (hx : SlotLaw x)
    (hs : x.state = .free ∨ x.state = .held ∨ x.state = .bound)
    (hb : ∀ n : InId, i ∈ (s.inp n).binding ↔ x.prog.launch = .input ∧ x.prog.source = n ∧ x.armed = true) :
    Laws o none (s.setSlot i x) := by
  have hw : x.state ≠ .waiting := by rcases hs with hs | hs | hs <;> simp [hs]
  have hd : x.state ≠ .driving := by rcases hs with hs | hs | hs <;> simp [hs]
  have hr : x.state ≠ .retiring := by rcases hs with hs | hs | hs <;> simp [hs]
  refine (h.setSlot x).putBack ?_
  rw [State.slot_setSlot_self]
  exact ⟨hx, fun e he hi => absurd hi (ha.ne_entry he), fun h => absurd h (by simp [hw, hd]),
    fun n c hc hi => absurd hi (ha.ne_claim hc), fun h => absurd h hd, iff_of_false ha.retire hr, hb⟩

/-- An insertion of an entry for a slot without one (R41, R44). -/
theorem Laws.insertDue (h : Laws o (some i) s) (ha : i ∉ s.due.map Entry.slot) (due : Tick) (p : Purpose) :
    Laws o (some i) (s.insertDue i due p) := by
  refine h.move ⟨?_, h.shape.claims, h.shape.queue, h.shape.backlog, h.shape.retire, h.shape.binding, h.shape.delivery⟩
    (fun _ _ => rfl) fun j hj => ⟨fun e he => ?_, fun _ _ _ => .rfl, .rfl, fun _ => .rfl⟩
  · refine (((dueInsert_perm s.time.now ⟨i, due, p⟩ s.due).map Entry.slot).nodup_iff).2 ?_
    exact List.nodup_cons.2 ⟨ha, h.shape.due⟩
  · subst he
    have hne : e ≠ ⟨i, due, p⟩ := by rintro rfl; exact hj rfl
    simp [State.insertDue, hne]

theorem State.mem_insertDue_self (s : State) (i : SlotId) (due : Tick) (p : Purpose) :
    i ∈ (s.insertDue i due p).due.map Entry.slot :=
  List.mem_map.2 ⟨⟨i, due, p⟩, by simp [State.insertDue], rfl⟩

/-- A WAITING slot with its START entry (R41). -/
theorem Laws.wait (h : Laws o (some i) s) (ha : Absent s i) {x : Slot} (hx : SlotLaw x) (hs : x.state = .waiting)
    (hb : BoundBy s i x.prog) (due : Tick) : Laws o none ((s.setSlot i x).insertDue i due .start) := by
  refine ((h.setSlot x).insertDue (ha.setSlot x).due due .start).putBack ?_
  show Placed _ i ((s.setSlot i x).slot i)
  rw [State.slot_setSlot_self]
  refine ⟨hx, fun e he hi => ?_, fun _ => State.mem_insertDue_self .., fun n c hc hi => absurd hi (ha.ne_claim hc),
    fun h => absurd (hs.symm.trans h) nofun, iff_of_false ha.retire (by simp [hs]), fun n => ?_⟩
  · rcases mem_dueInsert.1 he with rfl | he
    · simp [hs]
    · exact absurd hi (ha.ne_entry he)
  · exact (hb n).trans (by simp [Slot.armed, hs])

/-- A claim pushed on a line stands on top of its stack; the other stacks stay (R85). -/
theorem State.push_claims (s : State) (m n : OutId) (c : Claim) : ((s.setOut m ((s.out m).push c)).out n).claims =
    if n = m then c :: (s.out n).claims else (s.out n).claims := by
  rw [State.out_setOut]
  split
  · next hn => subst hn; rfl
  · rfl

/-- A push for a slot without a claim, on a stack with room (R83, R85). -/
theorem Laws.push (h : Laws o (some i) s) (ha : Absent s i) {m : OutId} (hroom : (s.out m).claims.length < 4) (level : Bool) :
    Laws o (some i) (s.setOut m ((s.out m).push ⟨i, level⟩)) := by
  refine h.move ⟨h.shape.due, fun n => ?_, h.shape.queue, h.shape.backlog, h.shape.retire, h.shape.binding, h.shape.delivery⟩
    (fun _ _ => rfl) fun j hj => ⟨fun _ _ => .rfl, fun n c hc => ?_, .rfl, fun _ => .rfl⟩
  · obtain ⟨hlen, hnd⟩ := h.shape.claims n
    rw [State.push_claims]
    split
    · next hn => subst hn; exact ⟨hroom, List.nodup_cons.2 ⟨ha.claims _, hnd⟩⟩
    · exact ⟨hlen, hnd⟩
  · subst hc
    have hne : c ≠ ⟨i, level⟩ := by rintro rfl; exact hj rfl
    rw [State.push_claims]
    split <;> simp [hne]

/-- A DRIVING slot with its END entry, and its claim on top of the stack of its LINE (R55, R85). -/
theorem Laws.drive (h : Laws o (some i) s) (ha : Absent s i) {x : Slot} (hx : SlotLaw x) (hs : x.state = .driving)
    (hb : BoundBy s i x.prog) (hroom : (s.out x.prog.line).claims.length < 4) {level : Bool}
    (hlevel : level = decide (x.prog.value = .high)) (due : Tick) :
    Laws o none (((s.setOut x.prog.line ((s.out x.prog.line).push ⟨i, level⟩)).setSlot i x).insertDue i due .stop) := by
  refine (((h.push ha hroom level).setSlot x).insertDue ha.due due .stop).putBack ?_
  have hclaims : ∀ n : OutId, ((((s.setOut x.prog.line ((s.out x.prog.line).push ⟨i, level⟩)).setSlot i x).insertDue i
      due .stop).out n).claims = if n = x.prog.line then ⟨i, level⟩ :: (s.out n).claims else (s.out n).claims :=
    fun n => State.push_claims s x.prog.line n ⟨i, level⟩
  show Placed _ i ((State.setSlot _ i x).slot i)
  rw [State.slot_setSlot_self]
  refine ⟨hx, fun e he hi => ?_, fun _ => State.mem_insertDue_self .., fun n c hc hi => ?_, fun _ => ?_,
    iff_of_false ha.retire (by simp [hs]), fun n => ?_⟩
  · rcases mem_dueInsert.1 he with rfl | he
    · simp [hs]
    · exact absurd hi (ha.ne_entry he)
  · rw [hclaims] at hc
    split at hc
    · next hn =>
      rcases List.mem_cons.1 hc with rfl | hc
      · exact ⟨hs, hn.symm, hlevel⟩
      · exact absurd hi (ha.ne_claim hc)
    · exact absurd hi (ha.ne_claim hc)
  · rw [hclaims, if_pos rfl]
    exact List.mem_cons_self
  · exact (hb n).trans (by simp [Slot.armed, hs])

/-- A RETIRING slot at the tail of the retire list of a full queue (R121). -/
theorem Laws.retire (h : Laws o (some i) s) (ha : Absent s i) {x : Slot} (hx : SlotLaw x) (hs : x.state = .retiring)
    (hb : ∀ n : InId, i ∈ (s.inp n).binding ↔ x.prog.launch = .input ∧ x.prog.source = n ∧ x.armed = true)
    (hfull : s.report.queue.length = 16) :
    Laws o none { s.setSlot i x with report.retire := s.report.retire ++ [i] } := by
  have hlisted : Laws o (some i) { s.setSlot i x with report.retire := s.report.retire ++ [i] } := by
    refine (h.setSlot x).move ⟨h.shape.due, h.shape.claims, h.shape.queue, fun _ => .inl hfull, ?_, h.shape.binding, h.shape.delivery⟩
      (fun _ _ => rfl) fun j hj => ⟨fun _ _ => .rfl, fun _ _ _ => .rfl, ?_, fun _ => .rfl⟩
    · exact List.nodup_append.2 ⟨h.shape.retire, List.nodup_singleton i, by
        rintro a hmem b hb rfl
        exact ha.retire (List.mem_singleton.1 hb ▸ hmem)⟩
    · simp [hj]
  refine hlisted.putBack ?_
  show Placed _ i ((s.setSlot i x).slot i)
  rw [State.slot_setSlot_self]
  exact ⟨hx, fun e he hi => absurd hi (ha.ne_entry he), fun h => absurd h (by simp [hs]),
    fun n c hc hi => absurd hi (ha.ne_claim hc), fun h => absurd (hs.symm.trans h) nofun, iff_of_true (by simp) hs, hb⟩

end

end Sys2Proof.Machine
end

section
/-! Launches, finishes, expiries and releases keep the laws between slots and collections (spec/01 section 1.8, spec/03, spec/04, spec/07). -/

namespace Sys2Proof.Machine

section
variable {o : Owed} {s : State} {i : SlotId}

/-! ### Changes in place -/

/-- A slot changed in place: its STATE, its programmed fields and whether it is armed stay. -/
theorem Laws.setSlot_inPlace (h : Laws o none s) {x : Slot} (hx : SlotLaw x) (hstate : x.state = (s.slot i).state)
    (hprog : x.prog = (s.slot i).prog) (harmed : x.armed = (s.slot i).armed) : Laws o none (s.setSlot i x) := by
  refine ((h.takeOut i).setSlot x).putBack ?_
  rw [State.slot_setSlot_self]
  have hi := h.placedAt i
  refine ⟨hx, ?_, ?_, ?_, ?_, ?_, ?_⟩
  · rw [hstate]; exact hi.entry
  · rw [hstate]; exact hi.running
  · rw [hstate, hprog]; exact hi.claim
  · rw [hstate, hprog]; exact hi.driving
  · rw [hstate]; exact hi.retiring
  · rw [hprog, harmed]; exact hi.bound

theorem keepsPlaces_noteExamination (o : Owed) (s : State) : KeepsPlaces o o s s.noteExamination :=
  .of_other_items rfl rfl rfl rfl rfl

theorem keepsPlaces_wakeRequest (o : Owed) (s : State) : KeepsPlaces o o s s.wakeRequest := by
  rw [State.wakeRequest_eq]
  exact .of_other_items (woken_slots s) (woken_due s) (woken_outs s) (woken_ins s) (woken_report s)

theorem keepsPlaces_giveRecord (o : Owed) (s : State) (r : Record) : KeepsPlaces o o s (s.giveRecord r) := by
  rw [State.giveRecord_eq]
  exact keepsPlaces_recorded o s r

theorem keepsPlaces_ignoreLaunch (o : Owed) (s : State) (l : Launch) : KeepsPlaces o o s (s.ignoreLaunch l) := by
  unfold State.ignoreLaunch
  split
  · exact keepsPlaces_giveRecord o s _
  · exact .refl o s

/-! ### Launches (section 4.2) -/

/-- A run begins at a slot that is out of its places and not pending (R70). -/
theorem Laws.beginRun (h : Laws o (some i) s) (ha : Absent s i) (hdisarm : (s.slot i).disarmMark = false)
    (hheld : (s.slot i).held = none) (hpasses : PassesArm (s.slot i).prog) (hpending : (s.slot i).pendingMark = false)
    (hb : BoundBy s i (s.slot i).prog) (time : Tick) (chain : Bool) : Laws o none (s.beginRun i time chain) := by
  have hrun : Slot.InRun { s.slot i with state := .waiting, occurrences := 0, launchTime := time } := by
    refine ⟨hdisarm, hheld, hpasses, fun hp => absurd hp (by simp [hpending]), fun hc => ?_⟩
    exact Nat.pos_of_ne_zero fun hz => hc (BitVec.eq_of_toNat_eq hz)
  exact h.wait ha (.of_inRun hrun (.inl rfl)) rfl hb _

/-- A pending mark set where R73 and R74 allow it. -/
theorem Laws.markPending (h : Laws o none s)
    (hs : ((s.slot i).state = .waiting ∨ (s.slot i).state = .driving) ∧ (s.slot i).prog.policy ≠ .restart ∨
      (s.slot i).state = .retiring ∧ (s.slot i).disarmMark = false) : Laws o none (s.markPending i) := by
  refine h.setSlot_inPlace ?_ rfl rfl rfl
  have hlaw := (h.placedAt i).law
  rcases hs with ⟨hs, hpolicy⟩ | ⟨hs, hdisarm⟩
  · obtain ⟨hdisarm, hheld, hpasses, -, hcount⟩ := hlaw.inRun hs
    exact .of_inRun ⟨hdisarm, hheld, hpasses, fun _ => hpolicy, hcount⟩ hs
  · obtain ⟨-, hheld, hpasses, hcount⟩ := hlaw.of_retiring hs
    exact .retiring hs (fun _ => hdisarm) hheld hpasses hcount

theorem Laws.launchRunning (h : Laws o none s) {l : Launch}
    (hs : (s.slot l.target).state = .waiting ∨ (s.slot l.target).state = .driving) : Laws o none (s.launchRunning l).1 := by
  unfold State.launchRunning
  split
  next hpolicy =>
    have hrun := (h.placedAt l.target).law.inRun hs
    have hpending : (s.slot l.target).pendingMark = false := Bool.eq_false_iff.2 fun hp => hrun.restart hp hpolicy
    refine (h.takeOut l.target).stopRun.beginRun (absent_stopRun (h.placedAt l.target) hs) ?_ ?_ ?_ ?_ (fun n => ?_) _ _
    all_goals rw [State.stopRun_slot]
    · exact hrun.disarm
    · exact hrun.held
    · exact hrun.passes
    · exact hpending
    · rw [State.stopRun_inp]
      exact (h.placedAt l.target).boundBy (Slot.armed_of_active (.inr hs)) n
  next hpolicy =>
    split
    · exact h.keep (keepsPlaces_ignoreLaunch o s l)
    · exact h.markPending (.inl ⟨hs, by simp [hpolicy]⟩)
  all_goals exact h.keep (keepsPlaces_ignoreLaunch o s l)

theorem Laws.launchRetiring (h : Laws o none s) {l : Launch} (hs : (s.slot l.target).state = .retiring) :
    Laws o none (s.launchRetiring l).1 := by
  unfold State.launchRetiring
  split
  · exact h
  next hdisarm =>
    have hmark : Laws o none (s.markPending l.target) := h.markPending (.inr ⟨hs, by simpa using hdisarm⟩)
    have hignore : Laws o none (s.ignoreLaunch l) := h.keep (keepsPlaces_ignoreLaunch o s l)
    split
    · split
      · exact hignore
      · exact hmark
    · split
      · exact hignore
      · exact hmark
    · exact hignore
    · exact hignore

/-- Every launch keeps the laws, by the state of its target (R69 to R74). -/
theorem Laws.launch (h : Laws o none s) (l : Launch) : Laws o none (s.launch l).1 := by
  unfold State.launch
  split
  next => exact h
  next => exact h
  next hs =>
    have hi := h.placedAt l.target
    have hfit := hi.law.fit (.inl hs)
    exact (h.takeOut l.target).beginRun (hi.absent (.inr (.inr hs))) hfit.disarm hfit.held hfit.passes
      (hi.law.not_pending (.inr (.inr hs))) (hi.boundBy (Slot.armed_of_active (.inl hs))) _ _
  next hs => exact h.launchRunning (.inl hs)
  next hs => exact h.launchRunning (.inr hs)
  next hs => exact h.launchRetiring hs

theorem Laws.chainLaunch (h : Laws o none s) (source target : SlotId) : Laws o none (s.chainLaunch source target) := by
  have hl := h.launch ⟨target, .chain, slotByte source, s.time.now⟩
  unfold State.chainLaunch
  dsimp only
  split
  · exact hl.keep (keepsPlaces_giveRecord o _ _)
  · exact hl

/-! ### Settling and finishing (R20, R21, R121) -/

/-- A slot whose run is over settles: pending run, HELD or BOUND (R20 step 2, R21). -/
theorem Laws.settle (h : Laws o (some i) s) (ha : Absent s i) (hfit : (s.slot i).Fit) (hb : BoundBy s i (s.slot i).prog) :
    Laws o none (s.settle i) := by
  unfold State.settle
  split
  · refine (h.setSlot _).beginRun (ha.setSlot _) ?_ ?_ ?_ ?_ ?_ _ _
    all_goals rw [State.slot_setSlot_self]
    · exact hfit.disarm
    · exact hfit.held
    · exact hfit.passes
    · exact hb
  next hp =>
    have hpending : (s.slot i).pendingMark = false := by simpa using hp
    by_cases honce : (s.slot i).prog.launch = .once
    · refine h.rest ha (x := { s.slot i with state := if (s.slot i).prog.launch == .once then .held else .bound })
        (.held (by simp [honce]) hfit.disarm hpending hfit.held) (.inr (.inl (by simp [honce]))) fun n => ?_
      rw [hb n]
      simp [honce]
    · refine h.rest ha (x := { s.slot i with state := if (s.slot i).prog.launch == .once then .held else .bound })
        (.bound (by simp [honce]) hfit.disarm hpending hfit.held hfit.passes honce hfit.count) (.inr (.inr (by simp [honce]))) fun n => ?_
      rw [hb n]
      simp [honce, Slot.armed]

/-- A record stored in a queue with room: only a FLUSH leaves slots RETIRING there (R121, R122). -/
theorem keepsPlaces_storedAtTail {o : Owed} {s : State} (r : Record) (hroom : s.report.queue.length < 16) :
    KeepsPlaces o o s { s with report := storedAtTail s.report r } := by
  refine .of_keepsRuns ⟨fun _ => rfl, rfl, fun _ => rfl, rfl⟩ (fun _ => rfl) (fun hs => ⟨?_, fun hr => ?_⟩) fun hs => hs.delivery
  · simp only [storedAtTail, List.length_append, List.length_singleton]; omega
  · exact .inr ((hs.backlog hr).resolve_left (by omega))

/-- A final record that a full queue refuses: the slot is RETIRING with its record (R121). -/
theorem Laws.retired (h : Laws o (some i) s) (ha : Absent s i) (hpasses : PassesArm (s.slot i).prog)
    (hcount : (s.slot i).prog.count ≠ 0 → (s.slot i).occurrences.toNat ≤ (s.slot i).prog.count.toNat) {disarm : Bool}
    (hmarks : (s.slot i).pendingMark = true → disarm = false)
    (hb : ∀ n : InId, i ∈ (s.inp n).binding ↔
      (s.slot i).prog.launch = .input ∧ (s.slot i).prog.source = n ∧ disarm = false)
    (hfull : ¬ s.report.queue.length < 16) (r : HeldRecord) : Laws o none (retired s i disarm r) := by
  refine h.retire ha (x := { s.slot i with state := .retiring, disarmMark := disarm, held := some r })
    (.retiring rfl hmarks rfl hpasses hcount) rfl (fun n => ?_) ?_
  · rw [hb n]
    simp [Slot.armed]
  · have := h.shape.queue
    omega

/-- A finish (R20): the DONE record, the next state, the chain. -/
theorem Laws.finish (h : Laws o (some i) s) (ha : Absent s i) (hfit : (s.slot i).Fit) (hb : BoundBy s i (s.slot i).prog)
    (late : Half) : Laws o none (s.finish i late) := by
  have hended : Laws o none
      (if (s.giveFinal i .done late).2 then (s.giveFinal i .done late).1.settle i else (s.giveFinal i .done late).1) := by
    rw [State.giveFinal_eq]
    by_cases hreport : (s.slot i).prog.report = .none
    · rw [if_pos hreport]
      exact h.settle ha hfit hb
    · by_cases hroom : s.report.queue.length < 16
      · rw [if_neg hreport, if_pos hroom]
        have hk := keepsPlaces_storedAtTail (o := o) (storedFinal (finalNow s i .done late) i) hroom
        exact (h.keep hk).settle (ha.keep hk.toKeepsRuns) hfit hb
      · rw [if_neg hreport, if_neg hroom]
        exact h.retired ha hfit.passes hfit.count (fun _ => rfl) (fun n => (hb n).trans (by simp)) hroom _
  unfold State.finish
  dsimp only
  split
  · exact hended.chainLaunch i _
  · exact hended

/-! ### Expiries (R50 to R59) -/

/-- A run goes on only short of a nonzero COUNT (R58). -/
theorem Slot.occurrences_lt_of_goesOn {x : Slot} (h : x.goesOn = true) (hc : x.prog.count ≠ 0) :
    x.occurrences.toNat < x.prog.count.toNat := by
  simp only [Slot.goesOn, Bool.and_eq_true, Bool.or_eq_true, beq_iff_eq, decide_eq_true_eq] at h
  exact h.2.resolve_left hc

/-- The course after an occurrence: the next start, or the finish (R58, R59). -/
theorem Laws.decideCourse (h : Laws o (some i) s) (ha : Absent s i) (hfit : (s.slot i).Fit)
    (hrestart : (s.slot i).pendingMark = true → (s.slot i).prog.policy ≠ .restart) (hb : BoundBy s i (s.slot i).prog) (late : Half) :
    Laws o none (s.decideCourse i late) := by
  unfold State.decideCourse
  split
  next hgoes =>
    exact h.wait ha (x := { s.slot i with state := .waiting })
      (.of_inRun ⟨hfit.disarm, hfit.held, hfit.passes, hrestart, Slot.occurrences_lt_of_goesOn hgoes⟩ (.inl rfl)) rfl hb _
  · exact h.finish ha hfit hb late

/-- An occurrence that does not drive is over: it is counted and recorded, and the run goes on or finishes (R57, R58, R59). -/
theorem Laws.endOccurrence (h : Laws o (some i) s) (ha : Absent s i) (hrun : (s.slot i).InRun) (hb : BoundBy s i (s.slot i).prog)
    (kind : RecordKind) (late : Half) : Laws o none (s.endOccurrence i kind late) := by
  have hcount : (s.slot i).prog.count ≠ 0 → ((s.slot i).occurrences + 1).toNat ≤ (s.slot i).prog.count.toNat := by
    intro hc
    rw [BitVec.toNat_add]
    exact (Nat.mod_le _ _).trans (hrun.count hc)
  have hcourse : ∀ u : State, KeepsPlaces o o (s.setSlot i { s.slot i with occurrences := (s.slot i).occurrences + 1 }) u →
      Laws o none (u.decideCourse i late) := by
    intro u hk
    have hx : u.slot i = { s.slot i with occurrences := (s.slot i).occurrences + 1 } :=
      (hk.slot i).trans (State.slot_setSlot_self ..)
    refine ((h.setSlot _).keep hk).decideCourse ((ha.setSlot _).keep hk.toKeepsRuns) ?_ ?_ (fun n => ?_) late
    · rw [hx]; exact ⟨hrun.disarm, hrun.held, hrun.passes, hcount⟩
    · rw [hx]; exact hrun.restart
    · rw [hk.binding n, hx]; exact hb n
  unfold State.endOccurrence
  dsimp only
  split
  · exact hcourse _ (keepsPlaces_giveRecord o _ _)
  · exact hcourse _ (.refl o _)

/-- A PULSE occurrence: missed, refused, or driving (R53, R54, R55). -/
theorem Laws.pulseStart (h : Laws o (some i) s) (ha : Absent s i) (hrun : (s.slot i).InRun) (hb : BoundBy s i (s.slot i).prog)
    (late : Half) : Laws o none (s.pulseStart i late) := by
  unfold State.pulseStart
  dsimp only
  split
  · exact h.endOccurrence ha hrun hb _ late
  · split
    · exact h.endOccurrence ha hrun hb _ late
    next hfull =>
      have hroom : (s.out (s.slot i).prog.line).claims.length < 4 := Nat.not_le.1 fun hle => hfull (decide_eq_true hle)
      refine h.drive ha (x := { s.slot i with state := .driving }) (.of_inRun ⟨hrun.disarm, hrun.held, hrun.passes, hrun.restart,
        hrun.count⟩ (.inr rfl)) rfl hb hroom ?_ _
      exact beq_eq_decide ..

/-- The occurrence of a START expiry, by KIND (R51, R52, R53). -/
theorem Laws.occurrence (h : Laws o (some i) s) (ha : Absent s i) (hrun : (s.slot i).InRun) (hb : BoundBy s i (s.slot i).prog)
    (late : Half) : Laws o none (s.occurrence i late) := by
  unfold State.occurrence
  dsimp only
  split
  · exact h.endOccurrence ha hrun hb _ late
  · exact h.endOccurrence ha hrun hb _ late
  · have hk : KeepsPlaces o o s (s.setOut (s.slot i).prog.line
        ((s.out (s.slot i).prog.line).changeRest (s.slot i).prog.value)) := by
      refine .of_eq rfl rfl (fun n => ?_) (fun _ => ⟨rfl, rfl⟩) rfl rfl
      rw [State.out_setOut]
      split
      next hn => subst hn; cases (s.slot i).prog.value <;> rfl
      next => rfl
    exact (h.keep hk).endOccurrence (ha.keep hk.toKeepsRuns) hrun hb _ late
  · exact h.pulseStart ha hrun hb late

/-- A START expiry, its entry taken out of the list (R50). -/
theorem Laws.startExpiry (h : Laws o (some i) s) (ha : Absent s i) (hrun : (s.slot i).InRun) (hb : BoundBy s i (s.slot i).prog)
    (due : Tick) : Laws o none (s.startExpiry i due) := by
  have hset := h.setSlot { s.slot i with schedStart := due }
  have hx : (s.setSlot i { s.slot i with schedStart := due }).slot i = { s.slot i with schedStart := due } :=
    State.slot_setSlot_self ..
  have hrun' : Slot.InRun { s.slot i with schedStart := due } := ⟨hrun.disarm, hrun.held, hrun.passes, hrun.restart, hrun.count⟩
  unfold State.startExpiry
  dsimp only
  split
  · have hk := keepsPlaces_wakeRequest o (s.setSlot i { s.slot i with schedStart := due })
    refine (hset.keep hk).occurrence ((ha.setSlot _).keep hk.toKeepsRuns) ?_ (fun n => ?_) _
    · rw [hk.slot, hx]; exact hrun'
    · rw [hk.binding, hk.slot, hx]; exact hb n
  · refine hset.occurrence (ha.setSlot _) ?_ ?_ _
    · rw [hx]; exact hrun'
    · rw [hx]; exact hb

/-- The head that an examination hands over (R46). -/
theorem State.dueHead_eq_some {e : Entry} (h : s.dueHead = some e) : ∃ rest, s.due = e :: rest := by
  unfold State.dueHead at h
  split at h
  · cases h
  · have := (Option.filter_eq_some_iff.1 h).1
    exact ⟨s.due.tail, (List.eq_cons_of_mem_head? this)⟩

/-- A hand-over keeps the laws if the event keeps them in the state that the slot's run has left. -/
theorem Laws.expire (h : Laws o none s) {p : Purpose} {event : State → SlotId → Tick → State}
    (hevent : ∀ (e : Entry), e.purpose = p →
      (s.slot e.slot).state = (if p = .start then .waiting else .driving) → Laws o none (event (s.removeDue e.slot) e.slot e.due)) :
    Laws o none (s.expire p event) := by
  unfold State.expire
  split
  next e he =>
    obtain ⟨rest, hdue⟩ := State.dueHead_eq_some he
    split
    next hp =>
      have hp : e.purpose = p := by simpa using hp
      have hstate := (h.placedAt e.slot).entry e (by simp [hdue]) rfl
      have hout : { s with due := s.due.tail } = s.removeDue e.slot := by
        rw [State.removeDue_head hdue h.shape.due, hdue]
        rfl
      rw [hout]
      exact hevent e hp (by rw [hstate, hp])
    · exact h
  · exact h

/-- START_EXPIRY (R50). -/
theorem Laws.expire_start (h : Laws o none s) : Laws o none (s.expire .start State.startExpiry) := by
  refine h.expire fun e _ hstate => ?_
  replace hstate : (s.slot e.slot).state = .waiting := hstate
  have hi := h.placedAt e.slot
  have hstop : s.stopRun e.slot = s.removeDue e.slot := by simp [State.stopRun, hstate]
  have ha := absent_stopRun hi (.inl hstate)
  rw [hstop] at ha
  exact (h.takeOut e.slot).removeDue.startExpiry ha (hi.law.inRun (.inl hstate))
    (hi.boundBy (Slot.armed_of_active (.inr (.inl hstate)))) e.due

/-- END_EXPIRY (R56). -/
theorem Laws.expire_stop (h : Laws o none s) : Laws o none (s.expire .stop State.endExpiry) := by
  refine h.expire fun e _ hstate => ?_
  replace hstate : (s.slot e.slot).state = .driving := hstate
  have hi := h.placedAt e.slot
  have hstop : s.stopRun e.slot = (s.removeDue e.slot).removeClaim e.slot := by simp [State.stopRun, hstate]
  have ha := absent_stopRun hi (.inr hstate)
  rw [hstop] at ha
  exact (h.takeOut e.slot).removeDue.removeClaim.endOccurrence ha (hi.law.inRun (.inr hstate))
    (hi.boundBy (Slot.armed_of_active (.inr (.inr hstate)))) _ _

/-! ### Releases of retiring slots (R21, R124, R127) -/

/-- A retire completion of a slot that has left the retire list (R21). -/
theorem Laws.retireCompletion (h : Laws o (some i) s) (ha : Absent s i) (hlaw : SlotLaw (s.slot i)) (hs : (s.slot i).state = .retiring)
    (hb : ∀ n : InId, i ∈ (s.inp n).binding ↔
      (s.slot i).prog.launch = .input ∧ (s.slot i).prog.source = n ∧ (s.slot i).armed = true) :
    Laws o none (s.retireCompletion i) := by
  obtain ⟨hmarks, -, hpasses, hcount⟩ := hlaw.of_retiring hs
  unfold State.retireCompletion
  split
  next hdisarm =>
    refine h.rest ha (x := { s.slot i with state := .held, disarmMark := false, held := none }) (.held rfl rfl ?_ rfl)
      (.inr (.inl rfl)) fun n => ?_
    · simpa [hdisarm] using hmarks
    · rw [hb n]; simp [Slot.armed, hs, hdisarm]
  next hdisarm =>
    have hk : KeepsPlaces o o s (if (s.slot i).pendingMark then s.noteExamination else s) := by
      split
      · exact keepsPlaces_noteExamination o s
      · exact .refl o s
    refine ((h.keep hk).setSlot _).settle ((ha.keep hk.toKeepsRuns).setSlot _) ?_ ?_
    · rw [State.slot_setSlot_self]
      exact ⟨by simpa using hdisarm, rfl, hpasses, hcount⟩
    · rw [State.slot_setSlot_self]
      intro n
      rw [State.inp_setSlot, hk.binding n, hb n]
      simp [Slot.armed, hs, hdisarm]

/-- A retiring slot released where the queue has room: only a POP or a FLUSH comes there. -/
theorem Laws.releaseRetiring (h : Laws .releases none s) (hs : (s.slot i).state = .retiring) (hroom : s.report.queue.length < 16) :
    Laws .releases none (s.releaseRetiring i) := by
  have hi := h.placedAt i
  obtain ⟨r, hr⟩ := Option.isSome_iff_exists.1 (hi.law.of_retiring hs).2.1
  unfold State.releaseRetiring
  rw [hr]
  refine Laws.retireCompletion (i := i) ?_ ?_ hi.law hs hi.bound
  · refine (h.takeOut i).move ⟨h.shape.due, h.shape.claims, ?_, fun _ => .inr rfl, h.shape.retire.filter _, h.shape.binding,
      h.shape.delivery⟩ (fun _ _ => rfl) fun j hj => ⟨fun _ _ => .rfl, fun _ _ _ => .rfl, ?_, fun _ => .rfl⟩
    · simp only [ReportUnit.store, List.length_append, List.length_singleton]; omega
    · simp [hj]
  · refine ⟨fun hm => ?_, fun n hm => ?_, by simp⟩
    · obtain ⟨e, he, hslot⟩ := List.mem_map.1 hm
      have := hi.entry e he hslot
      split at this <;> simp [hs] at this
    · obtain ⟨c, hc, hslot⟩ := List.mem_map.1 hm
      simpa [hs] using (hi.claim n c hc hslot).1

end

@[simp] theorem State.settle_report (s : State) (i : SlotId) : (s.settle i).report = s.report := by
  unfold State.settle; split <;> rfl

theorem State.retireCompletion_report (s : State) (i : SlotId) : (s.retireCompletion i).report = s.report := by
  unfold State.retireCompletion
  split
  · rfl
  · dsimp only
    rw [State.settle_report]
    split <;> rfl

/-- A release stores the held record and takes the slot out of the retire list (R124, R127). -/
theorem State.releaseRetiring_report {s : State} {i : SlotId} (h : (s.slot i).held.isSome = true) :
    (s.releaseRetiring i).report.queue.length = s.report.queue.length + 1 ∧
      (s.releaseRetiring i).report.retire = s.report.retire.filter fun j => j != i := by
  obtain ⟨r, hr⟩ := Option.isSome_iff_exists.1 h
  unfold State.releaseRetiring
  rw [State.retireCompletion_report, hr]
  simp [ReportUnit.store]

/-- What a FLUSH owes is nothing once no slot is left to release or the queue is full (R127 step 3). -/
theorem Laws.releases_done {s : State} (h : Laws .releases none s) (hd : s.report.retire = [] ∨ s.report.queue.length = 16) :
    Laws .nothing none s := by
  refine ⟨{ h.shape with backlog := fun hr => .inl (hd.resolve_left hr), delivery := fun n d hd => ?_ }, h.placed⟩
  obtain ⟨hne, hrest⟩ := h.shape.delivery n d hd
  exact ⟨.inl (hne.resolve_right nofun), hrest⟩

/-- The head of the retire list is released (R124, R127). -/
theorem Laws.release_head {s : State} {i : SlotId} {rest : List SlotId} (h : Laws .releases none s) (hl : s.report.retire = i :: rest)
    (hroom : s.report.queue.length < 16) :
    Laws .releases none (s.releaseRetiring i) ∧ (s.releaseRetiring i).report.queue.length = s.report.queue.length + 1 ∧
      (s.releaseRetiring i).report.retire = rest := by
  have hs : (s.slot i).state = .retiring := (h.placedAt i).retiring.1 (by simp [hl])
  obtain ⟨hqueue, hretire⟩ := State.releaseRetiring_report ((h.placedAt i).law.of_retiring hs).2.1
  refine ⟨h.releaseRetiring hs hroom, hqueue, ?_⟩
  have hnd := h.shape.retire
  rw [hl, List.nodup_cons] at hnd
  rw [hretire, hl, List.filter_cons_of_neg (by simp), List.filter_eq_self.2]
  intro j hj
  simpa using fun e : j = i => hnd.1 (e ▸ hj)

/-- The releases of a FLUSH (R127 step 3). -/
theorem Laws.releaseInOrder {l : List SlotId} : ∀ {s : State}, Laws .releases none s → s.report.retire = l →
    Laws .nothing none (s.releaseInOrder l) := by
  induction l with
  | nil => exact fun h hl => h.releases_done (.inl hl)
  | cons i rest ih =>
    intro s h hl
    unfold State.releaseInOrder
    split
    next hfull => exact h.releases_done (.inr (le_antisymm h.shape.queue ((ReportUnit.full_iff _).1 hfull)))
    next hfull =>
      obtain ⟨hlaws, -, hretire⟩ := h.release_head hl ((ReportUnit.full_eq_false_iff _).1 (by simpa using hfull))
      exact ih hlaws hretire

/-- FLUSH (R127). -/
theorem Laws.flush {s : State} (h : Laws .nothing none s) : Laws .nothing none s.flushReports.state := by
  have hempty : Laws .releases none s.emptyQueue :=
    h.keep (.of_keepsRuns ⟨fun _ => rfl, rfl, fun _ => rfl, rfl⟩ (fun _ => rfl) (fun _ => ⟨Nat.zero_le _, fun _ => .inr rfl⟩)
      fun hs => hs.mono.delivery)
  exact hempty.releaseInOrder rfl

/-- POP (R124). -/
theorem Laws.pop {s : State} (h : Laws .nothing none s) : Laws .nothing none s.popReport := by
  unfold State.popReport
  split
  · exact h
  next r rest hq =>
    have hlen : s.report.queue.length = rest.length + 1 := by simp [hq]
    have hqueue := h.shape.queue
    have hpopped : Laws .releases none { s with report.queue := rest } :=
      h.keep (.of_keepsRuns ⟨fun _ => rfl, rfl, fun _ => rfl, rfl⟩ (fun _ => rfl)
        (fun _ => ⟨by show rest.length ≤ 16; omega, fun _ => .inr rfl⟩) fun hs => hs.mono.delivery)
    dsimp only
    split
    next hl => exact hpopped.releases_done (.inl hl)
    next i _ hl =>
      have hfull : s.report.queue.length = 16 := (h.shape.backlog (by simp [hl])).resolve_right nofun
      obtain ⟨hlaws, hq', -⟩ := hpopped.release_head hl (by show rest.length < 16; omega)
      exact hlaws.releases_done (.inr (hq'.trans (by show rest.length + 1 = 16; omega)))

end Sys2Proof.Machine
end

section
/-! The input unit and the cancels keep the laws between slots and collections (spec/01 section 1.7, spec/06). -/

namespace Sys2Proof.Machine

/-! ### Deliveries and edges (R105, R107) -/

/-- A line whose delivery is not empty owes no completion. -/
theorem keepsPlaces_of_not_empty {s : State} {n : InId} (h : (s.inp n).deliveryEmpty = false) :
    KeepsPlaces (.completion n) .nothing s s := by
  refine .of_keepsRuns (.refl s) (fun _ => rfl) (fun hs => ⟨hs.queue, fun hr => .inl ((hs.backlog hr).resolve_right nofun)⟩)
    fun hs m d hd => ?_
  obtain ⟨hne, hrest⟩ := hs.delivery m d hd
  refine ⟨.inl (hne.elim id ?_), hrest⟩
  rintro ⟨⟩
  rw [InLine.deliveryEmpty_of_some hd] at h
  simpa using h

theorem keepsPlaces_closeDelivery (s : State) (n : InId) : KeepsPlaces (.completion n) .nothing s (s.closeDelivery n) := by
  unfold State.closeDelivery
  split
  next hnone => exact keepsPlaces_of_not_empty (InLine.deliveryEmpty_of_none hnone)
  next d _ =>
    have hrecord : KeepsPlaces (.completion n) (.completion n) s
        (if d.owed then s.giveRecord (d.record n s.time.now) else s) := by
      split
      · exact keepsPlaces_giveRecord _ s _
      · exact .refl _ s
    exact hrecord.trans (keepsPlaces_setInp (.inr rfl) rfl fun _ => nofun)

/-- An edge begins a delivery of the binding list, which may be empty (R105). -/
theorem keepsPlaces_takeEdge (s : State) (n : InId) : KeepsPlaces .nothing (.completion n) s (s.takeEdge n) := by
  have hwake : KeepsPlaces .nothing .nothing s (if (s.inp n).wakeEnable then s.wakeRequest else s) := by
    split
    · exact keepsPlaces_wakeRequest _ s
    · exact .refl _ s
  refine hwake.trans (keepsPlaces_setInp (.inl rfl) (hwake.binding n).symm fun hs d hd => ?_)
  obtain rfl := Option.some.inj hd
  refine ⟨.inr rfl, ?_, fun i hi => ?_⟩
  · rw [← hwake.binding n]; exact hs.binding n
  · rw [hwake.binding n]; exact hi

theorem keepsPlaces_qualifiedChange (s : State) (n : InId) : KeepsPlaces .nothing .nothing s (s.qualifiedChange n) := by
  unfold State.qualifiedChange
  split
  · dsimp only
    split
    · exact (keepsPlaces_takeEdge s n).trans (keepsPlaces_closeDelivery _ n)
    next hleft => exact (keepsPlaces_takeEdge s n).trans (keepsPlaces_of_not_empty (by simpa using hleft))
  · exact .refl _ s

/-! ### Raw changes and qualifications (R100 to R103, R108) -/

theorem keepsPlaces_takeRawChange (s : State) (n : InId) : KeepsPlaces .nothing .nothing s (s.takeRawChange n) := by
  unfold State.takeRawChange
  dsimp only
  split
  · exact keepsPlaces_setInp_same rfl rfl
  · split
    · exact keepsPlaces_setInp_same rfl rfl
    · split
      · refine .trans ?_ (keepsPlaces_qualifiedChange _ n)
        exact keepsPlaces_setInp_same rfl rfl
      · exact keepsPlaces_setInp_same rfl rfl

theorem keepsPlaces_comparePin (s : State) (n : InId) : KeepsPlaces .nothing .nothing s (s.comparePin n) := by
  unfold State.comparePin
  split
  · exact keepsPlaces_takeRawChange s n
  · exact .refl _ s

theorem keepsPlaces_completeIfEmpty (s : State) (n : InId) : KeepsPlaces (.completion n) .nothing s (s.completeIfEmpty n) := by
  unfold State.completeIfEmpty
  split
  · exact (keepsPlaces_closeDelivery s n).trans (keepsPlaces_comparePin _ n)
  next hleft => exact keepsPlaces_of_not_empty (by simpa using hleft)

theorem keepsPlaces_completeQualification (s : State) (n : InId) :
    KeepsPlaces .nothing .nothing s (s.completeQualification n) := by
  unfold State.completeQualification
  split
  · refine .trans (.trans ?_ (keepsPlaces_qualifiedChange _ n)) (keepsPlaces_comparePin _ n)
    exact keepsPlaces_setInp_same rfl rfl
  · exact .refl _ s

theorem keepsPlaces_whenOn {s : State} {event : State → State} (h : KeepsPlaces .nothing .nothing s (event s)) :
    KeepsPlaces .nothing .nothing s (s.whenOn event) := by
  unfold State.whenOn
  split
  · exact .refl _ s
  · exact h

theorem keepsPlaces_pinChange (s : State) (n : InId) (level : Bool) : KeepsPlaces .nothing .nothing s (s.pinChange n level) :=
  have hpin : KeepsPlaces .nothing .nothing s (s.setPin n level) := .of_other_items rfl rfl rfl rfl rfl
  hpin.trans (keepsPlaces_whenOn (keepsPlaces_comparePin _ n))

/-! ### Input launches (R106) -/

theorem Laws.deliverNext {s : State} (h : Laws .nothing none s) (n : InId) : Laws .nothing none (s.deliverNext n) := by
  unfold State.deliverNext
  split
  · exact h
  next d hd =>
    split
    · exact h.mono.keep (keepsPlaces_completeIfEmpty s n)
    next i rest hslots =>
      have hleft : KeepsPlaces .nothing (.completion n) s
          (s.setInp n { s.inp n with delivery := some { d with slots := rest, delivered := d.delivered + 1 } }) := by
        refine keepsPlaces_setInp (.inl rfl) rfl fun hs d' hd' => ?_
        obtain rfl := Option.some.inj hd'
        obtain ⟨-, hnd, hsub⟩ := hs.delivery n d hd
        rw [hslots] at hnd hsub
        exact ⟨.inr rfl, (List.nodup_cons.1 hnd).2, fun j hj => hsub j (List.mem_cons_of_mem _ hj)⟩
      exact (((h.keep hleft).keep (keepsPlaces_noteExamination _ _)).launch _).keep (keepsPlaces_completeIfEmpty _ n)

/-! ### Binding lists (R110, R111) -/

section
variable {s : State} {i : SlotId}

/-- A slot that is out of its places leaves its binding list and its line's delivery; no list then holds it (R18 step 3, R111). -/
theorem Laws.leaveBinding (h : Laws .nothing (some i) s) (hb : ∀ n : InId, i ∈ (s.inp n).binding → (s.slot i).prog.source = n) :
    Laws .nothing (some i) (s.leaveBinding i) ∧ KeepsRuns s (s.leaveBinding i) ∧
      ∀ n : InId, i ∉ ((s.leaveBinding i).inp n).binding := by
  rw [State.leaveBinding_eq]
  dsimp only
  generalize hn : (s.slot i).prog.source = n at hb ⊢
  generalize hu : s.setInp n { s.inp n with
    binding := (s.inp n).binding.filter fun j => j != i
    delivery := (s.inp n).delivery.map fun d => { d with slots := d.slots.filter fun j => j != i } } = u
  have hinp : ∀ m, u.inp m = if m = n then { s.inp n with
      binding := (s.inp n).binding.filter fun j => j != i
      delivery := (s.inp n).delivery.map fun d => { d with slots := d.slots.filter fun j => j != i } } else s.inp m := by
    intro m
    rw [← hu, State.inp_setInp]
  have hruns : KeepsRuns s u := by
    subst hu
    exact ⟨fun _ => rfl, rfl, fun _ => rfl, rfl⟩
  have hlaws : Laws (.completion n) (some i) u := by
    have hreport : u.report = s.report := by subst hu; rfl
    refine h.move ⟨?_, fun m => ?_, ?_, ?_, ?_, fun m => ?_, fun m d hd => ?_⟩ (fun j _ => hruns.slot j)
      fun j hj => ⟨fun e _ => ?_, fun m c _ => ?_, ?_, fun m => ?_⟩
    · rw [hruns.due]; exact h.shape.due
    · rw [hruns.claims m]; exact h.shape.claims m
    · rw [hreport]; exact h.shape.queue
    · rw [hreport]; exact fun hr => .inl ((h.shape.backlog hr).resolve_right nofun)
    · rw [hreport]; exact h.shape.retire
    · rw [hinp]
      split
      · exact (h.shape.binding n).filter _
      · exact h.shape.binding m
    · rw [hinp] at hd ⊢
      split at hd
      next hm =>
        obtain ⟨d', hd', rfl⟩ := Option.map_eq_some_iff.1 hd
        obtain ⟨-, hnd, hsub⟩ := h.shape.delivery n d' hd'
        rw [if_pos hm]
        refine ⟨.inr (by rw [hm]), hnd.filter _, fun j hj => ?_⟩
        obtain ⟨hj, hne⟩ := List.mem_filter.1 hj
        exact List.mem_filter.2 ⟨hsub j hj, hne⟩
      next hm =>
        obtain ⟨hne, hrest⟩ := h.shape.delivery m d hd
        rw [if_neg hm]
        exact ⟨.inl (hne.resolve_right nofun), hrest⟩
    · rw [hruns.due]
    · rw [hruns.claims m]
    · rw [hruns.retire]
    · rw [hinp]
      split
      next hm => subst hm; simp [hj]
      next => rfl
  have hk := keepsPlaces_completeIfEmpty u n
  refine ⟨hlaws.keep hk, hruns.trans hk.toKeepsRuns, fun m => ?_⟩
  rw [hk.binding m, hinp]
  split
  · simp
  next hm => exact fun hi => hm (hb m hi).symm

theorem Laws.unbind (h : Laws .nothing (some i) s)
    (hb : ∀ n : InId, i ∈ (s.inp n).binding → (s.slot i).prog.launch = .input ∧ (s.slot i).prog.source = n) :
    Laws .nothing (some i) (s.unbind i) ∧ KeepsRuns s (s.unbind i) ∧ ∀ n : InId, i ∉ ((s.unbind i).inp n).binding := by
  by_cases hlaunch : (s.slot i).prog.launch = .input
  · rw [State.unbind_of_input hlaunch]
    exact h.leaveBinding fun n hi => (hb n hi).2
  · have hstay : s.unbind i = s := by simp [State.unbind, hlaunch]
    rw [hstay]
    exact ⟨h, .refl s, fun n hi => hlaunch (hb n hi).1⟩

/-- An INPUT slot joins the binding list of its SOURCE (R110). -/
theorem Laws.joinBinding {o : Owed} (h : Laws o (some i) s) (hb : ∀ n : InId, i ∉ (s.inp n).binding) :
    Laws o (some i) (s.joinBinding i) ∧ KeepsRuns s (s.joinBinding i) ∧
      ∀ n : InId, i ∈ ((s.joinBinding i).inp n).binding ↔ (s.slot i).prog.source = n := by
  unfold State.joinBinding
  dsimp only
  generalize (s.slot i).prog.source = n
  have hinp : ∀ m, (s.setInp n { s.inp n with binding := (s.inp n).binding ++ [i] }).inp m =
      if m = n then { s.inp n with binding := (s.inp n).binding ++ [i] } else s.inp m := fun m => State.inp_setInp s n m _
  refine ⟨h.move ⟨h.shape.due, h.shape.claims, h.shape.queue, h.shape.backlog, h.shape.retire, fun m => ?_, fun m d hd => ?_⟩
    (fun _ _ => rfl) (fun j hj => ⟨fun _ _ => .rfl, fun _ _ _ => .rfl, .rfl, fun m => ?_⟩), ⟨fun _ => rfl, rfl, fun _ => rfl, rfl⟩,
    fun m => ?_⟩
  · rw [hinp]
    split
    · refine List.nodup_append.2 ⟨h.shape.binding n, List.nodup_singleton i, ?_⟩
      rintro a ha b hb' rfl
      exact hb n (List.mem_singleton.1 hb' ▸ ha)
    · exact h.shape.binding m
  · rw [hinp] at hd ⊢
    split at hd
    next hm =>
      obtain ⟨hne, hnd, hsub⟩ := h.shape.delivery n d hd
      rw [if_pos hm, hm]
      exact ⟨hne, hnd, fun j hj => List.mem_append_left _ (hsub j hj)⟩
    next hm =>
      rw [if_neg hm]
      exact h.shape.delivery m d hd
  · rw [hinp]
    split
    next hm => subst hm; simp [hj]
    next => rfl
  · rw [hinp]
    split
    next hm => subst hm; simp
    next hm => exact iff_of_false (hb m) (Ne.symm hm)

/-! ### Cancels (R18, R19) -/

/-- The CANCELLED record of a slot that is out of every place: it is HELD, or RETIRING and disarmed (R18 steps 4 and 5, R121). -/
theorem Laws.cancelledRecord (h : Laws .nothing (some i) s) (ha : Absent s i) (hfit : (s.slot i).Fit)
    (hpending : (s.slot i).pendingMark = false) (hunbound : ∀ n : InId, i ∉ (s.inp n).binding) :
    Laws .nothing none (cancelledRecord s i) := by
  have hheld : ∀ u, Laws .nothing (some i) u → KeepsPlaces .nothing .nothing s u →
      Laws .nothing none (u.setSlot i { s.slot i with state := .held }) := by
    intro u hu hk
    refine hu.rest (ha.keep hk.toKeepsRuns) (.held rfl hfit.disarm hpending hfit.held) (.inr (.inl rfl)) fun n => ?_
    rw [hk.binding n]
    exact iff_of_false (hunbound n) (by simp [Slot.armed])
  unfold Machine.cancelledRecord
  dsimp only
  split
  · exact hheld s h (.refl _ s)
  · split
    next hroom =>
      have hk := keepsPlaces_storedAtTail (o := .nothing) (storedFinal (finalNow s i .cancelled 0) i) hroom
      exact hheld _ (h.keep hk) hk
    next hfull =>
      exact h.retired ha hfit.passes hfit.count (fun hp => absurd hp (by simp [hpending]))
        (fun n => iff_of_false (hunbound n) (by simp)) hfull _

/-- A cancel of a slot in BOUND, WAITING or DRIVING (R18). -/
theorem Laws.cancelActive (h : Laws .nothing none s)
    (hs : (s.slot i).state = .bound ∨ (s.slot i).state = .waiting ∨ (s.slot i).state = .driving) :
    Laws .nothing none (s.cancelActive i) := by
  have hi := h.placedAt i
  have hb := hi.boundBy (Slot.armed_of_active hs)
  have hfit := hi.law.fit hs
  have hstopped : Laws .nothing (some i) (if (s.slot i).state = .bound then s else runAbandoned s i) ∧
      Absent (if (s.slot i).state = .bound then s else runAbandoned s i) i ∧
      ∀ n, (if (s.slot i).state = .bound then s else runAbandoned s i).inp n = s.inp n := by
    split
    next hbound => exact ⟨h.takeOut i, hi.absent (.inr (.inr hbound)), fun _ => rfl⟩
    next hbound =>
      rw [← State.stopRun_eq]
      exact ⟨(h.takeOut i).stopRun, absent_stopRun hi (hs.resolve_left hbound), fun n => State.stopRun_inp n⟩
  rw [State.cancelActive_eq_unbind]
  generalize (if (s.slot i).state = .bound then s else runAbandoned s i) = u at hstopped ⊢
  obtain ⟨hlaws, habsent, hinp⟩ := hstopped
  have hx : (u.setSlot i { s.slot i with pendingMark := false }).slot i = { s.slot i with pendingMark := false } :=
    State.slot_setSlot_self ..
  obtain ⟨hlaws', hruns, hunbound⟩ := (hlaws.setSlot { s.slot i with pendingMark := false }).unbind fun n hn => by
    rw [State.inp_setSlot, hinp n] at hn
    rw [hx]
    exact (hb n).1 hn
  refine hlaws'.cancelledRecord ((habsent.setSlot _).keep hruns) ?_ ?_ hunbound
  · rw [hruns.slot i, hx]
    exact ⟨hfit.disarm, hfit.held, hfit.passes, hfit.count⟩
  · rw [hruns.slot i, hx]

/-- A cancel of a RETIRING slot: it stays in the retire list, disarmed, and in no binding list (R19). -/
theorem Laws.cancelRetiring (h : Laws .nothing none s) (hs : (s.slot i).state = .retiring) :
    Laws .nothing none (s.cancelRetiring i) := by
  have hi := h.placedAt i
  obtain ⟨-, hheld, hpasses, hcount⟩ := hi.law.of_retiring hs
  have hdisarmed : ∀ u, Laws .nothing (some i) u → KeepsRuns (s.setSlot i { s.slot i with pendingMark := false, disarmMark := true }) u →
      (∀ n, i ∉ (u.inp n).binding) → Laws .nothing none u := by
    intro u hu hruns hunbound
    have hx : u.slot i = { s.slot i with pendingMark := false, disarmMark := true } :=
      (hruns.slot i).trans (State.slot_setSlot_self ..)
    refine hu.putBack ?_
    rw [hx]
    refine ⟨.retiring hs nofun hheld hpasses hcount, ?_, fun hr => absurd hr (by simp [hs]), fun n => ?_,
      fun hd => absurd (hs.symm.trans hd) nofun, ?_, fun n => iff_of_false (hunbound n) (by simp [Slot.armed, hs])⟩
    · rw [hruns.due]; exact hi.entry
    · rw [hruns.claims n]; exact hi.claim n
    · rw [hruns.retire]; exact hi.retiring
  have hset := (h.takeOut i).setSlot { s.slot i with pendingMark := false, disarmMark := true }
  unfold State.cancelRetiring
  dsimp only
  split
  next hdisarm => exact hdisarmed _ hset (.refl _) (hi.not_bound (by simp [Slot.armed, hs, hdisarm]))
  next =>
    obtain ⟨hlaws, hruns, hunbound⟩ := hset.unbind fun n hn => by
      rw [State.slot_setSlot_self]
      obtain ⟨hlaunch, hsource, -⟩ := (hi.bound n).1 hn
      exact ⟨hlaunch, hsource⟩
    exact hdisarmed _ hlaws hruns hunbound

theorem Laws.cancel (h : Laws .nothing none s) {t : State} (ht : s.cancel i = some t) : Laws .nothing none t := by
  unfold State.cancel at ht
  split at ht
  next => cases ht
  next => cases ht
  next hs => exact Option.some.inj ht ▸ h.cancelActive (.inl hs)
  next hs => exact Option.some.inj ht ▸ h.cancelActive (.inr (.inl hs))
  next hs => exact Option.some.inj ht ▸ h.cancelActive (.inr (.inr hs))
  next hs => exact Option.some.inj ht ▸ h.cancelRetiring hs

end

end Sys2Proof.Machine
end

section
/-! Every command keeps the laws between slots and collections. -/

namespace Sys2Proof.Machine

section
variable {s : State}

/-! ### Slot commands (R13 to R18, R67) -/

/-- The lowest FREE slot is FREE (R13). -/
theorem State.slot_of_lowestFree {i : SlotId} (h : s.lowestFree = some i) : (s.slot i).state = .free := by
  simpa using List.find?_some h

/-- A slot at rest takes other content at rest, in no binding list before and after. -/
theorem Laws.setSlot_unarmed {o : Owed} {i : SlotId} (h : Laws o none s) (hs : (s.slot i).state = .free ∨ (s.slot i).state = .held)
    {x : Slot} (hx : SlotLaw x) (hstate : x.state = .free ∨ x.state = .held) : Laws o none (s.setSlot i x) := by
  have hi := h.placedAt i
  refine (h.takeOut i).rest (hi.absent (hs.imp_right .inl)) hx (hstate.imp_right .inl) fun n => ?_
  exact iff_of_false (hi.not_bound (Slot.armed_of_unarmed hs) n) (by simp [Slot.armed_of_unarmed hstate])

/-- A FREE or HELD slot has no marks and no held record. -/
theorem SlotLaw.unmarked {x : Slot} (h : SlotLaw x) (hs : x.state = .free ∨ x.state = .held) :
    x.disarmMark = false ∧ x.pendingMark = false ∧ x.held = none := by
  obtain ⟨hdisarm, hheld⟩ := h.not_retiring (by rcases hs with hs | hs <;> simp [hs])
  exact ⟨hdisarm, h.not_pending (hs.imp_right .inl), hheld⟩

theorem Laws.allocSlot (h : Laws .nothing none s) : Laws .nothing none s.allocSlot.state := by
  unfold State.allocSlot
  split
  next i hi =>
    have hs := State.slot_of_lowestFree hi
    obtain ⟨hdisarm, hpending, hheld⟩ := (h.placedAt i).law.unmarked (.inl hs)
    exact h.setSlot_unarmed (.inl hs) (.held rfl hdisarm hpending hheld) (.inr rfl)
  · exact h

/-- The defaults of a FREE slot meet its law (R9). -/
theorem slotLaw_default : SlotLaw {} := by
  simp [SlotLaw]

theorem Laws.releaseSlot (h : Laws .nothing none s) (i : SlotId) : Laws .nothing none (s.releaseSlot i).state := by
  unfold State.releaseSlot
  split
  next hs => exact h.setSlot_unarmed (.inr hs) slotLaw_default (.inl rfl)
  all_goals exact h

/-- Fields that ARM accepts pass every row of R16's table, and LAUNCH is one of the three kinds. -/
theorem Program.passesArm_of_armCheck {p : Program} (h : p.armCheck = none) : PassesArm p ∧ p.launch ≠ .code3 := by
  rw [Program.armCheck_eq, List.findSome?_eq_none_iff] at h
  have hpass : PassesArm p := by
    rw [PassesArm, List.any_eq_false]
    intro row hrow hfails
    simpa [hfails] using h row hrow
  refine ⟨hpass, fun hlaunch => ?_⟩
  simpa [armChecks, hlaunch] using List.any_eq_false.1 hpass (true, 1)

/-- A HELD slot whose checks pass enters its armed state (R17). -/
theorem Laws.enterArmed (h : Laws .nothing none s) {i : SlotId} (hs : (s.slot i).state = .held)
    (hpasses : PassesArm (s.slot i).prog) (hlaunch : (s.slot i).prog.launch ≠ .code3) : Laws .nothing none (s.enterArmed i) := by
  have hi := h.placedAt i
  have ha := hi.absent (.inr (.inl hs))
  have hunbound := hi.not_bound (Slot.armed_of_unarmed (.inr hs))
  obtain ⟨hdisarm, hpending, hheld⟩ := hi.law.unmarked (.inr hs)
  have hbound : (s.slot i).prog.launch ≠ .once → SlotLaw { s.slot i with state := .bound, occurrences := 0 } :=
    fun honce => .bound rfl hdisarm hpending hheld hpasses honce fun _ => Nat.zero_le _
  unfold State.enterArmed
  split
  next honce =>
    have hk := keepsPlaces_noteExamination .nothing s
    refine ((h.takeOut i).keep hk).beginRun (ha.keep hk.toKeepsRuns) ?_ ?_ ?_ ?_ (fun n => ?_) _ _
    all_goals rw [hk.slot i]
    · exact hdisarm
    · exact hheld
    · exact hpasses
    · exact hpending
    · rw [hk.binding n]
      exact iff_of_false (hunbound n) (by simp [honce])
  next hinput =>
    obtain ⟨hlaws, hruns, hjoined⟩ := ((h.takeOut i).setSlot { s.slot i with state := .bound, occurrences := 0 }).joinBinding hunbound
    have hx := (hruns.slot i).trans (State.slot_setSlot_self ..)
    rw [State.slot_setSlot_self] at hjoined
    rw [← State.setSlot_slot (State.joinBinding _ i) i, hx]
    refine hlaws.rest ((ha.setSlot _).keep hruns) (hbound (by simp [hinput])) (.inr (.inr rfl)) fun n => ?_
    rw [hjoined n]
    simp [hinput, Slot.armed]
  next hchain =>
    exact (h.takeOut i).rest ha (hbound (by simp [hchain])) (.inr (.inr rfl)) fun n =>
      iff_of_false (hunbound n) (by simp [hchain])
  next hcode3 => exact absurd hcode3 hlaunch

theorem Laws.armSlot (h : Laws .nothing none s) (i : SlotId) : Laws .nothing none (s.armSlot i).state := by
  unfold State.armSlot
  split
  next hs =>
    split
    · exact h
    next hcheck =>
      obtain ⟨hpasses, hlaunch⟩ := Program.passesArm_of_armCheck hcheck
      exact h.enterArmed (by simpa using hs) hpasses hlaunch
  · exact h

theorem Laws.launchSlot (h : Laws .nothing none s) (i : SlotId) : Laws .nothing none (s.launchSlot i).state :=
  (h.keep (keepsPlaces_noteExamination _ s)).launch _

theorem Laws.cancelSlot (h : Laws .nothing none s) (i : SlotId) : Laws .nothing none (s.cancelSlot i).state := by
  unfold State.cancelSlot
  split
  next ht => exact h.cancel ht
  · exact h

/-! ### Time commands and the time base -/

theorem Laws.other_items {o : Owed} {t : State} (h : Laws o none s) (hslots : t.slots = s.slots) (hdue : t.due = s.due)
    (houts : t.outs = s.outs) (hins : t.ins = s.ins) (hreport : t.report = s.report) : Laws o none t :=
  h.keep (.of_other_items hslots hdue houts hins hreport)

theorem Laws.startTime (h : Laws .nothing none s) : Laws .nothing none s.startTime.state := by
  unfold State.startTime
  dsimp only
  split
  · exact h.other_items rfl rfl rfl rfl rfl
  · exact h

theorem Laws.stopTime (h : Laws .nothing none s) : Laws .nothing none s.stopTime.state := by
  unfold State.stopTime
  split
  · exact h
  · exact h.other_items rfl rfl rfl rfl rfl

theorem Laws.dozeTime (h : Laws .nothing none s) : Laws .nothing none s.dozeTime.state := by
  unfold State.dozeTime
  split
  · split
    · exact h.other_items rfl rfl rfl rfl rfl
    · exact h
  · exact h

theorem Laws.wakeTime (h : Laws .nothing none s) : Laws .nothing none s.wakeTime.state := by
  unfold State.wakeTime
  split
  · exact h.other_items rfl rfl rfl rfl rfl
  · exact h

theorem Laws.advanceDue (h : Laws .nothing none s) (size : Tick) : Laws .nothing none (s.advanceDue size) := by
  unfold State.advanceDue
  split <;> exact h.other_items rfl rfl rfl rfl rfl

theorem Laws.advance (h : Laws .nothing none s) (source : AdvanceSource) : Laws .nothing none (s.advance source) := by
  cases source with
  | clkinEdge =>
    show Laws _ _ s.clkinEdge
    unfold State.clkinEdge
    split
    · split
      · refine Laws.advanceDue ?_ 1
        exact h.other_items rfl rfl rfl rfl rfl
      · exact h.other_items rfl rfl rfl rfl rfl
    · exact h
  | prescaler =>
    show Laws _ _ s.prescalerFull
    unfold State.prescalerFull
    split
    · refine Laws.advanceDue ?_ 1
      exact h.other_items rfl rfl rfl rfl rfl
    · exact h
  | slowPart =>
    show Laws _ _ s.slowPart
    unfold State.slowPart
    split
    · exact h.other_items rfl rfl rfl rfl rfl
    · exact h
  | slowPeriod =>
    show Laws _ _ s.slowPeriod
    unfold State.slowPeriod
    split
    · refine Laws.advanceDue ?_ _
      exact h.other_items rfl rfl rfl rfl rfl
    · exact h
  | held =>
    show Laws _ _ s.makeHeld
    unfold State.makeHeld
    split
    · exact h
    · split
      · exact h
      · exact h.other_items rfl rfl rfl rfl rfl

theorem Laws.takeReady (h : Laws .nothing none s) : Laws .nothing none s.takeReady := by
  unfold State.takeReady
  split
  · exact h.other_items rfl rfl rfl rfl rfl
  · exact h

/-! ### COMMAND writes and visits (spec/08) -/

theorem Laws.complete (h : Laws .nothing none s) (result : ResultCode) (value : Byte) :
    Laws .nothing none (s.complete result value) :=
  h.other_items rfl rfl rfl rfl rfl

theorem Laws.slotCommand (h : Laws .nothing none s) {effect : State → SlotId → Answer}
    (heffect : ∀ i, Laws .nothing none (effect s i).state) : Laws .nothing none (s.slotCommand effect) := by
  unfold State.slotCommand
  split
  next i _ => exact (heffect i).complete _ _
  · exact h.complete _ _

theorem Laws.startWalk (h : Laws .nothing none s) (w : WalkCommand) : Laws .nothing none (s.startWalk w) := by
  unfold State.startWalk
  split
  · exact h.other_items rfl rfl rfl rfl rfl
  · exact h.complete _ _

/-- A COMMAND write, refused or taken, whatever its code (R138, R139). -/
theorem Laws.commandWrite (h : Laws .nothing none s) (code : Byte) : Laws .nothing none (s.commandWrite code) := by
  unfold State.commandWrite
  split
  · exact h.other_items rfl rfl rfl rfl rfl
  · unfold State.takeCommand
    split
    · exact h.allocSlot.complete _ _
    · exact h.slotCommand h.armSlot
    · exact h.slotCommand h.launchSlot
    · exact h.slotCommand h.cancelSlot
    · exact h.slotCommand h.releaseSlot
    · exact h.startWalk _
    · exact h.startWalk _
    · exact h.startTime.complete _ _
    · exact h.stopTime.complete _ _
    · exact h.dozeTime.complete _ _
    · exact h.wakeTime.complete _ _
    · exact h.flush.complete _ _
    · exact h.complete _ _

theorem Laws.walkAct (h : Laws .nothing none s) (i : SlotId) : Laws .nothing none (s.walkAct i) := by
  unfold State.walkAct
  split
  · exact (h.keep (keepsPlaces_noteExamination _ s)).launch _
  · cases ht : s.cancel i with
    | none => exact h
    | some t => exact h.cancel ht
  · exact h

theorem Laws.takeVisit (h : Laws .nothing none s) : Laws .nothing none s.takeVisit := by
  unfold State.takeVisit
  split
  next hwalk =>
    have hact := h.walkAct ⟨s.cmd.walkPos, hwalk.2⟩
    dsimp only
    generalize s.walkAct ⟨s.cmd.walkPos, hwalk.2⟩ = u at hact ⊢
    have hacted : Laws .nothing none
        (if s.qualifies ⟨s.cmd.walkPos, hwalk.2⟩ then { u with cmd.walkCount := s.cmd.walkCount + 1 } else s) := by
      split
      · exact hact.other_items rfl rfl rfl rfl rfl
      · exact h
    generalize (if s.qualifies ⟨s.cmd.walkPos, hwalk.2⟩ then { u with cmd.walkCount := s.cmd.walkCount + 1 } else s) = v
      at hacted ⊢
    split
    · exact hacted.other_items rfl rfl rfl rfl rfl
    · exact hacted.other_items rfl rfl rfl rfl rfl
  · exact h

/-! ### Register accesses (spec/09) -/

/-- Output lines that keep their claims. -/
theorem Laws.setOuts (h : Laws .nothing none s) {outs : Vector OutLine 16}
    (hclaims : ∀ n : OutId, outs[n].claims = (s.out n).claims) : Laws .nothing none { s with outs := outs } :=
  h.keep (.of_eq rfl rfl hclaims (fun _ => ⟨rfl, rfl⟩) rfl rfl)

/-- A line register's write touches no claim (R89, R92). -/
theorem Laws.setBank (h : Laws .nothing none s) (bank : Bank) (b : Byte) {set : OutLine → Bool → OutLine}
    (hset : ∀ l v, (set l v).claims = l.claims) : Laws .nothing none (s.setBank bank b set) := by
  unfold State.setBank
  refine h.setOuts fun n => ?_
  simp only [Fin.getElem_fin, Vector.getElem_ofFn]
  split
  · exact hset _ _
  · rfl

/-- A stored field of a slot leaves it HELD (R12). -/
theorem Laws.slotWrite (h : Laws .nothing none s) {i : SlotId} {x : Slot} {f : Nat} {b : Byte} (hx : (s.slot i).write f b = some x) :
    Laws .nothing none (s.setSlot i x) := by
  by_cases hs : (s.slot i).state = .free ∨ (s.slot i).state = .held
  · rw [Slot.write_of_unarmed hs] at hx
    obtain ⟨p, -, rfl⟩ := Option.map_eq_some_iff.1 hx
    obtain ⟨hdisarm, hpending, hheld⟩ := (h.placedAt i).law.unmarked hs
    exact h.setSlot_unarmed hs (.held rfl hdisarm hpending hheld) (.inr rfl)
  · rw [Slot.write_eq_none (.inr (.inr (not_or.1 hs)))] at hx
    cases hx

/-- A stored field of an input line leaves its binding list and its delivery (R99). -/
theorem InLine.write_keeps {l l' : InLine} {f : Nat} {b : Byte} (h : l.write f b = some l') :
    l'.binding = l.binding ∧ l'.delivery = l.delivery := by
  unfold InLine.write at h
  split at h
  · obtain rfl := Option.some.inj h
    unfold InLine.writeConfig
    dsimp only
    split <;> exact ⟨rfl, rfl⟩
  · obtain rfl := Option.some.inj h
    exact ⟨rfl, rfl⟩
  · cases h

theorem Laws.writeSetup (h : Laws .nothing none s) {t : State} {f : Nat} {b : Byte} (ht : s.writeSetup f b = some t) :
    Laws .nothing none t := by
  unfold State.writeSetup at ht
  split at ht
  · split at ht
    · exact Option.some.inj ht ▸ h.other_items rfl rfl rfl rfl rfl
    · cases ht
  · split at ht
    · exact Option.some.inj ht ▸ h.other_items rfl rfl rfl rfl rfl
    · cases ht
  · split at ht
    · exact Option.some.inj ht ▸ h.other_items rfl rfl rfl rfl rfl
    · cases ht
  · exact Option.some.inj ht ▸ h.keep (.of_eq rfl rfl (fun _ => rfl) (fun _ => ⟨rfl, rfl⟩) rfl rfl)
  · cases ht

theorem Laws.writeField (h : Laws .nothing none s) {r : RecordRef} {t : State} {f : Nat} {b : Byte}
    (ht : s.writeField r f b = some t) : Laws .nothing none t := by
  unfold State.writeField at ht
  split at ht
  · obtain ⟨x, hx, rfl⟩ := Option.map_eq_some_iff.1 ht
    exact h.slotWrite hx
  · obtain ⟨l, hl, rfl⟩ := Option.map_eq_some_iff.1 ht
    obtain ⟨hbinding, hdelivery⟩ := InLine.write_keeps hl
    exact h.keep (keepsPlaces_setInp_same hbinding hdelivery)
  · exact h.writeSetup ht
  · cases ht
  · cases ht

theorem Laws.dataWrite (h : Laws .nothing none s) (b : Byte) : Laws .nothing none (s.dataWrite b) := by
  have hwritten : Laws .nothing none
      ((if s.fieldInRange then s.writeField s.selected s.port.fieldSel.toNat b else none).getD s.reject) := by
    cases ht : (if s.fieldInRange then s.writeField s.selected s.port.fieldSel.toNat b else none) with
    | none => exact h.other_items rfl rfl rfl rfl rfl
    | some t =>
      split at ht
      · exact h.writeField ht
      · cases ht
  exact hwritten.other_items rfl rfl rfl rfl rfl

theorem Laws.dataRead (h : Laws .nothing none s) : Laws .nothing none s.dataRead := by
  have hsnapshot : Laws .nothing none s.snapshotOnRead := by
    unfold State.snapshotOnRead
    split
    · split
      · exact h.other_items rfl rfl rfl rfl rfl
      · exact h
    all_goals exact h
  exact hsnapshot.other_items rfl rfl rfl rfl rfl

theorem Laws.recSelWrite (h : Laws .nothing none s) (b : Byte) : Laws .nothing none (s.recSelWrite b) := by
  unfold State.recSelWrite
  dsimp only
  split <;> exact h.other_items rfl rfl rfl rfl rfl

/-- Every slot FREE and every collection empty (R9, R23, R49, R96, R97, R114, R115, R134, R135). -/
theorem laws_of_empty (hslots : ∀ i, s.slot i = {}) (hdue : s.due = []) (hclaims : ∀ n, (s.out n).claims = [])
    (hins : ∀ n, (s.inp n).binding = [] ∧ (s.inp n).delivery = none) (hqueue : s.report.queue = []) (hretire : s.report.retire = []) :
    Laws .nothing none s := by
  refine ⟨⟨by simp [hdue], fun n => by simp [hclaims n], by simp [hqueue], by simp [hretire], by simp [hretire],
    fun n => by simp [(hins n).1], fun n => by simp [(hins n).2]⟩, fun j _ => ?_⟩
  rw [hslots j]
  exact ⟨slotLaw_default, by simp [hdue], nofun, by simp [hclaims], nofun, by simp [hretire], fun n => by simp [(hins n).1]⟩

theorem laws_resetWith (pins : Vector Bool 8) : Laws .nothing none (State.resetWith pins) :=
  laws_of_empty (State.resetWith_slot pins) rfl (fun n => by rw [State.resetWith_out]) (fun n => by simp) rfl rfl

theorem laws_softReset (s : State) : Laws .nothing none s.softReset := by
  refine laws_of_empty (fun i => ?_) rfl (fun n => ?_) (fun n => ?_) rfl rfl
  · simp [State.softReset, State.slot]
  · simp [State.softReset, State.out, OutLine.softReset]
  · simp [State.softReset, State.inp, InLine.softReset]

theorem Laws.controlWrite (h : Laws .nothing none s) (b : Byte) : Laws .nothing none (s.controlWrite b) := by
  unfold State.controlWrite
  split
  · exact laws_softReset s
  · exact h

theorem Laws.registerWrite (h : Laws .nothing none s) (address : BitVec 5) (b : Byte) :
    Laws .nothing none (s.registerWrite address b) := by
  unfold State.registerWrite
  split
  · exact h.controlWrite b
  · exact h.other_items rfl rfl rfl rfl rfl
  · exact h.other_items rfl rfl rfl rfl rfl
  · exact h.commandWrite b
  · exact h.other_items rfl rfl rfl rfl rfl
  · exact h.recSelWrite b
  · exact h.other_items rfl rfl rfl rfl rfl
  · exact h.dataWrite b
  · exact h.pop
  · exact h.setBank .low b fun _ _ => rfl
  · exact h.setBank .high b fun _ _ => rfl
  · exact h.setBank .low b fun _ _ => rfl
  · exact h.setBank .high b fun _ _ => rfl
  · exact h.setBank .low b fun _ _ => rfl
  · exact h.setBank .high b fun _ _ => rfl
  · exact h.other_items rfl rfl rfl rfl rfl

/-! ### Every command -/

theorem Laws.whenOn (h : Laws .nothing none s) {event : State → State} (hevent : Laws .nothing none (event s)) :
    Laws .nothing none (s.whenOn event) := by
  unfold State.whenOn
  split
  · exact h
  · exact hevent

/-- The state that every command leaves keeps the laws, row by row. -/
theorem Laws.exec (h : Laws .nothing none s) (c : Instr) : ∃ t, exec c s = .next t ∧ Laws .nothing none t := by
  cases c with
  | alloc => exact ⟨_, rfl, h.whenOn (h.commandWrite _)⟩
  | arm => exact ⟨_, rfl, h.whenOn (h.commandWrite _)⟩
  | launch => exact ⟨_, rfl, h.whenOn (h.commandWrite _)⟩
  | cancel => exact ⟨_, rfl, h.whenOn (h.commandWrite _)⟩
  | release => exact ⟨_, rfl, h.whenOn (h.commandWrite _)⟩
  | launchGroup => exact ⟨_, rfl, h.whenOn (h.commandWrite _)⟩
  | cancelGroup => exact ⟨_, rfl, h.whenOn (h.commandWrite _)⟩
  | start => exact ⟨_, rfl, h.whenOn (h.commandWrite _)⟩
  | stop => exact ⟨_, rfl, h.whenOn (h.commandWrite _)⟩
  | doze => exact ⟨_, rfl, h.whenOn (h.commandWrite _)⟩
  | wake => exact ⟨_, rfl, h.whenOn (h.commandWrite _)⟩
  | flush => exact ⟨_, rfl, h.whenOn (h.commandWrite _)⟩
  | badCommand code => exact ⟨_, rfl, h.whenOn (h.commandWrite code)⟩
  | pop value => exact ⟨_, rfl, h.whenOn h.pop⟩
  | softReset value => exact ⟨_, rfl, h.whenOn (h.controlWrite value)⟩
  | hardwareReset => exact ⟨_, rfl, (laws_resetWith s.pins).other_items rfl rfl rfl rfl rfl⟩
  | resetRelease levels => exact ⟨_, rfl, (laws_resetWith (pinLevels levels)).other_items rfl rfl rfl rfl rfl⟩
  | recSelWrite value => exact ⟨_, rfl, h.whenOn (h.recSelWrite value)⟩
  | dataRead => exact ⟨_, rfl, h.whenOn h.dataRead⟩
  | dataWrite value => exact ⟨_, rfl, h.whenOn (h.dataWrite value)⟩
  | now0Read => exact ⟨_, rfl, h.whenOn (h.other_items rfl rfl rfl rfl rfl)⟩
  | irqFlagsWrite value => exact ⟨_, rfl, h.whenOn (h.other_items rfl rfl rfl rfl rfl)⟩
  | irqEnableWrite value => exact ⟨_, rfl, h.whenOn (h.other_items rfl rfl rfl rfl rfl)⟩
  | lineRestWrite bank value => exact ⟨_, rfl, h.whenOn (h.setBank bank value fun _ _ => rfl)⟩
  | lineEnWrite bank value => exact ⟨_, rfl, h.whenOn (h.setBank bank value fun _ _ => rfl)⟩
  | lineOdWrite bank value => exact ⟨_, rfl, h.whenOn (h.setBank bank value fun _ _ => rfl)⟩
  | registerWrite address value => exact ⟨_, rfl, h.whenOn (h.registerWrite address value)⟩
  | advance source => exact ⟨_, rfl, h.whenOn (h.advance source)⟩
  | readyEvent => exact ⟨_, rfl, h.whenOn h.takeReady⟩
  | rawChange line level => exact ⟨_, rfl, h.keep (keepsPlaces_pinChange s line level)⟩
  | qualificationComplete line => exact ⟨_, rfl, h.whenOn (h.keep (keepsPlaces_completeQualification s line))⟩
  | startExpiry => exact ⟨_, rfl, h.whenOn h.expire_start⟩
  | endExpiry => exact ⟨_, rfl, h.whenOn h.expire_stop⟩
  | inputLaunch line => exact ⟨_, rfl, h.whenOn (h.deliverNext line)⟩
  | visit => exact ⟨_, rfl, h.whenOn h.takeVisit⟩

end

/-- Every command that answers a next state keeps a consistent state consistent. -/
theorem Consistent.exec {s t : State} (h : Consistent s) {c : Instr} (he : exec c s = .next t) : Consistent t := by
  obtain ⟨u, hu, hlaws⟩ := ((consistent_iff s).1 h).exec c
  exact (consistent_iff t).2 (Host.Outcome.next.inj (hu.symm.trans he) ▸ hlaws)

/-- Settles O58: the queue's front leaves, and its command keeps the laws. -/
theorem stepKeepsConsistent : Obligations.StepKeepsConsistent := by
  intro s t h hstep
  unfold step at hstep
  split at hstep
  next => exact Host.Outcome.next.inj hstep ▸ h
  next c rest _ =>
    have hfront : Consistent { s with pending := rest } := h.keep (.of_other_items rfl rfl rfl rfl rfl)
    exact hfront.exec hstep

/-- Settles O57: the state after reset has every slot FREE, every collection empty, and no time to keep. -/
theorem resetMeetsEveryLaw : Obligations.ResetMeetsEveryLaw := by
  have hdeadline : ∀ n : InId, (State.reset.inp n).deadline = none := by
    intro n
    simp [State.reset]
  refine ⟨(consistent_iff _).2 (laws_resetWith _), by decide, fun n => ?_, by decide, .nil, nofun, fun n d hd => ?_, nofun, nofun⟩
  · simp [State.reset, InputLaw]
  · rw [hdeadline n] at hd
    cases hd

end Sys2Proof.Machine
end

section
/-! What the events of the part leave of its single units: NOW and the walk items as they are, and the laws of the time base and of
each input line kept (spec/02, spec/06, spec/08). -/

namespace Sys2Proof.Machine

/-- The second state has the NOW and the command unit of the first, and meets the law of the time base and that of each input line if the
first does. -/
structure LeavesUnits (s t : State) : Prop where
  now : t.time.now = s.time.now
  cmd : t.cmd = s.cmd
  time : TimeLaw s.time → TimeLaw t.time
  input : ∀ n : InId, InputLaw (s.inp n) → InputLaw (t.inp n)

section
variable {s t u : State}

theorem LeavesUnits.refl (s : State) : LeavesUnits s s := ⟨rfl, rfl, id, fun _ => id⟩

theorem LeavesUnits.trans (h₁ : LeavesUnits s t) (h₂ : LeavesUnits t u) : LeavesUnits s u :=
  ⟨h₂.now.trans h₁.now, h₂.cmd.trans h₁.cmd, h₂.time ∘ h₁.time, fun n => h₂.input n ∘ h₁.input n⟩

/-- A change of the time base that leaves NOW. -/
theorem LeavesUnits.of_time (hcmd : t.cmd = s.cmd) (hins : t.ins = s.ins) (hnow : t.time.now = s.time.now)
    (htime : TimeLaw s.time → TimeLaw t.time) : LeavesUnits s t :=
  ⟨hnow, hcmd, htime, fun n => by rw [State.inp_congr hins]; exact id⟩

/-- A change outside the three units. -/
theorem LeavesUnits.of_eq (hcmd : t.cmd = s.cmd) (hins : t.ins = s.ins) (htime : t.time = s.time) : LeavesUnits s t :=
  .of_time hcmd hins (by rw [htime]) (by rw [htime]; exact id)

/-- One input line written. -/
theorem LeavesUnits.setInp (h : LeavesUnits s t) {n : InId} {l : InLine} (hl : InputLaw (s.inp n) → InputLaw l) :
    LeavesUnits s (t.setInp n l) := by
  refine ⟨h.now, h.cmd, h.time, fun m => ?_⟩
  rw [State.inp_setInp]
  split
  next hm => subst hm; exact hl
  next => exact h.input m

/-- An event that is taken or not. -/
theorem LeavesUnits.ite (p : Prop) [Decidable p] (h : LeavesUnits s t) : LeavesUnits s (if p then t else s) := by
  split
  · exact h
  · exact .refl s

/-! ### The law of an input line -/

/-- A STEADY line: its qualified level is the raw level (R98). -/
theorem inputLaw_of_steady {l : InLine} (hd : l.deadline = none) (hl : l.raw = l.qualified) : InputLaw l :=
  ⟨fun _ => hl, fun h => absurd hd h⟩

/-- A QUALIFYING line: its levels differ, its sense is not OFF, and it has no delivery (R98, R100, R108). -/
theorem inputLaw_of_qualifying {l : InLine} (hd : l.deadline ≠ none) (hl : l.raw ≠ l.qualified) (hs : l.sense ≠ .off)
    (hdel : l.delivery = none) : InputLaw l :=
  ⟨fun h => absurd h hd, fun _ => ⟨hl, hs, hdel⟩⟩

/-- The law speaks of the levels, the deadline, the sense, and whether the line has a delivery. -/
theorem InputLaw.congr {l l' : InLine} (h : InputLaw l) (hraw : l'.raw = l.raw) (hq : l'.qualified = l.qualified)
    (hd : l'.deadline = l.deadline) (hs : l'.sense = l.sense) (hdel : l.delivery = none → l'.delivery = none) : InputLaw l' := by
  obtain ⟨hsteady, hqualifying⟩ := h
  unfold InputLaw
  rw [hraw, hq, hd, hs]
  refine ⟨hsteady, fun hne => ?_⟩
  obtain ⟨hlevels, hsense, hnone⟩ := hqualifying hne
  exact ⟨hlevels, hsense, hdel hnone⟩

/-! ### The law of the time base -/

/-- The end of a doze meets the law of RUNNING (R28, R35). -/
theorem TimeLaw.leaveDoze {t : TimeBase} (h : TimeLaw t) : TimeLaw t.leaveDoze := by
  obtain ⟨-, -, hcount, -, hslow, hcoarse, -, -⟩ := h
  unfold TimeBase.leaveDoze
  split
  · exact ⟨rfl, nofun, Nat.zero_le _, fun _ => rfl, fun _ => rfl, hcoarse, nofun, nofun⟩
  next hs => exact ⟨rfl, nofun, hcount, nofun, fun _ => hslow (by simpa using hs), hcoarse, nofun, nofun⟩

/-- The mark of an examination may go, and in STOPPED there is none (R48; log entry 30). -/
theorem TimeLaw.examOwed {t : TimeBase} (h : TimeLaw t) {b : Bool} (hb : t.examOwed = false → b = false) :
    TimeLaw { t with examOwed := b } := by
  obtain ⟨hosc, hready, hcount, hzero, hslow, hcoarse, hstep, hstopped⟩ := h
  exact ⟨hosc, hready, hcount, hzero, hslow, hcoarse, hstep, fun hs => ⟨(hstopped hs).1, hb (hstopped hs).2⟩⟩

end

section
variable (s : State) (i : SlotId) (n : InId)

@[simp] theorem TimeBase.leaveDoze_now (t : TimeBase) : t.leaveDoze.now = t.now := by
  unfold TimeBase.leaveDoze; split <;> rfl

theorem leavesUnits_setSlot (x : Slot) : LeavesUnits s (s.setSlot i x) := .of_eq rfl rfl rfl

theorem leavesUnits_wakeRequest : LeavesUnits s s.wakeRequest :=
  .ite _ (.of_time rfl rfl (TimeBase.leaveDoze_now _) TimeLaw.leaveDoze)

theorem leavesUnits_noteExamination : LeavesUnits s s.noteExamination :=
  .of_time rfl rfl rfl fun h => h.examOwed fun ho => by simp [State.examining, ho]

/-! ### Launches, settling and finishing -/

theorem leavesUnits_giveRecord (r : Record) : LeavesUnits s (s.giveRecord r) := by
  rw [State.giveRecord_eq]
  exact .of_eq (recorded_cmd s r) (recorded_ins s r) (recorded_time s r)

theorem leavesUnits_giveFinal (kind : FinalKind) (late : Half) : LeavesUnits s (s.giveFinal i kind late).1 := by
  unfold State.giveFinal
  split
  · exact .refl s
  · split <;> exact .of_eq rfl rfl rfl

theorem leavesUnits_launch (l : Launch) : LeavesUnits s (s.launch l).1 := by
  rw [State.launch_eq]
  exact .of_eq (launched_cmd s l) (launched_ins s l) (launched_time s l)

theorem leavesUnits_chainLaunch (target : SlotId) : LeavesUnits s (s.chainLaunch i target) := by
  unfold State.chainLaunch
  have hl := leavesUnits_launch s ⟨target, .chain, slotByte i, s.time.now⟩
  dsimp only
  split
  · exact hl.trans (leavesUnits_giveRecord _ _)
  · exact hl

theorem leavesUnits_settle : LeavesUnits s (s.settle i) := by
  unfold State.settle
  split <;> exact .of_eq rfl rfl rfl

theorem leavesUnits_finish (late : Half) : LeavesUnits s (s.finish i late) := by
  unfold State.finish
  have hfinal := leavesUnits_giveFinal s i .done late
  have hended : LeavesUnits s
      (if (s.giveFinal i .done late).2 then (s.giveFinal i .done late).1.settle i else (s.giveFinal i .done late).1) :=
    hfinal.trans (.ite _ (leavesUnits_settle _ i))
  dsimp only
  split
  · exact hended.trans (leavesUnits_chainLaunch _ i _)
  · exact hended

theorem leavesUnits_retireCompletion : LeavesUnits s (s.retireCompletion i) := by
  unfold State.retireCompletion
  split
  · exact leavesUnits_setSlot s i _
  · have hnoted : LeavesUnits s (if (s.slot i).pendingMark then s.noteExamination else s) :=
      .ite _ (leavesUnits_noteExamination s)
    have hfreed := hnoted.trans (leavesUnits_setSlot _ i { s.slot i with held := none })
    exact hfreed.trans (leavesUnits_settle _ i)

theorem leavesUnits_releaseRetiring : LeavesUnits s (s.releaseRetiring i) := by
  refine .trans ?_ (leavesUnits_retireCompletion _ i)
  exact .of_eq rfl rfl rfl

theorem leavesUnits_releaseInOrder (l : List SlotId) : ∀ s : State, LeavesUnits s (s.releaseInOrder l) := by
  induction l with
  | nil => exact LeavesUnits.refl
  | cons i rest ih =>
    intro s
    unfold State.releaseInOrder
    split
    · exact .refl s
    · exact (leavesUnits_releaseRetiring s i).trans (ih _)

theorem leavesUnits_flushReports : LeavesUnits s s.flushReports.state :=
  have hempty : LeavesUnits s s.emptyQueue := .of_eq rfl rfl rfl
  hempty.trans (leavesUnits_releaseInOrder _ _)

theorem leavesUnits_popReport : LeavesUnits s s.popReport := by
  unfold State.popReport
  split
  · exact .refl s
  next r rest _ =>
    have hpopped : LeavesUnits s { s with report.queue := rest } := .of_eq rfl rfl rfl
    dsimp only
    split
    · exact hpopped
    · exact hpopped.trans (leavesUnits_releaseRetiring _ _)

/-! ### Expiries -/

theorem leavesUnits_endOccurrence (kind : RecordKind) (late : Half) : LeavesUnits s (s.endOccurrence i kind late) := by
  have hcourse : ∀ u : State, LeavesUnits u (u.decideCourse i late) := by
    intro u
    unfold State.decideCourse
    split
    · exact .of_eq rfl rfl rfl
    · exact leavesUnits_finish u i late
  have hcounted := leavesUnits_setSlot s i { s.slot i with occurrences := (s.slot i).occurrences + 1 }
  exact (hcounted.trans (.ite _ (leavesUnits_giveRecord _ _))).trans (hcourse _)

theorem leavesUnits_pulseStart (late : Half) : LeavesUnits s (s.pulseStart i late) := by
  unfold State.pulseStart
  dsimp only
  split
  · exact leavesUnits_endOccurrence s i _ late
  · split
    · exact leavesUnits_endOccurrence s i _ late
    · exact .of_eq rfl rfl rfl

theorem leavesUnits_occurrence (late : Half) : LeavesUnits s (s.occurrence i late) := by
  unfold State.occurrence
  dsimp only
  split
  · exact leavesUnits_endOccurrence s i _ late
  · exact leavesUnits_endOccurrence s i _ late
  · refine .trans ?_ (leavesUnits_endOccurrence _ i _ late)
    exact .of_eq rfl rfl rfl
  · exact leavesUnits_pulseStart s i late

theorem leavesUnits_startExpiry (due : Tick) : LeavesUnits s (s.startExpiry i due) := by
  have hset := leavesUnits_setSlot s i { s.slot i with schedStart := due }
  exact (hset.trans (.ite _ (leavesUnits_wakeRequest _))).trans (leavesUnits_occurrence _ i _)

theorem leavesUnits_endExpiry (due : Tick) : LeavesUnits s (s.endExpiry i due) :=
  have hremoved : LeavesUnits s (s.removeClaim i) := .of_eq rfl rfl rfl
  hremoved.trans (leavesUnits_endOccurrence _ i _ _)

theorem leavesUnits_expire (p : Purpose) {event : State → SlotId → Tick → State}
    (hevent : ∀ u i due, LeavesUnits u (event u i due)) : LeavesUnits s (s.expire p event) := by
  unfold State.expire
  split
  · refine .ite _ (.trans ?_ (hevent _ _ _))
    exact .of_eq rfl rfl rfl
  · exact .refl s

/-! ### The input unit -/

theorem leavesUnits_closeDelivery : LeavesUnits s (s.closeDelivery n) := by
  unfold State.closeDelivery
  split
  · exact .refl s
  next d _ =>
    have hrecord : LeavesUnits s (if d.owed then s.giveRecord (d.record n s.time.now) else s) :=
      .ite _ (leavesUnits_giveRecord s _)
    exact hrecord.trans ((LeavesUnits.refl _).setInp fun h => h.congr rfl rfl rfl rfl fun _ => rfl)

variable {s n} in
/-- An edge comes to a STEADY line alone (R105). -/
theorem leavesUnits_qualifiedChange (hd : (s.inp n).deadline = none) : LeavesUnits s (s.qualifiedChange n) := by
  have hwake : LeavesUnits s (if (s.inp n).wakeEnable then s.wakeRequest else s) := .ite _ (leavesUnits_wakeRequest s)
  have hedge : LeavesUnits s (s.takeEdge n) := hwake.setInp fun h => inputLaw_of_steady hd (h.1 hd)
  unfold State.qualifiedChange
  refine .ite _ ?_
  dsimp only
  split
  · exact hedge.trans (leavesUnits_closeDelivery _ n)
  · exact hedge

variable {s n} in
/-- A raw change of a line without a delivery, by the sense, the qualification state and the filter (R100, R101, R102, R108). -/
theorem leavesUnits_takeRawChange (h : s.rawChangeDue n = true) : LeavesUnits s (s.takeRawChange n) := by
  obtain ⟨hdel, hpin⟩ : (s.inp n).delivery = none ∧ s.pin n ≠ (s.inp n).raw := by
    simpa [State.rawChangeDue] using h
  unfold State.takeRawChange
  dsimp only
  split
  · exact (LeavesUnits.refl s).setInp fun _ => inputLaw_of_steady rfl rfl
  next hsense =>
    split
    next hd =>
      refine (LeavesUnits.refl s).setInp fun hlaw => inputLaw_of_steady rfl ?_
      have hlevels := (hlaw.2 (Option.isSome_iff_ne_none.1 hd)).1
      exact (Bool.eq_not_of_ne hpin).trans (Bool.eq_not_of_ne hlevels.symm).symm
    next hd =>
      replace hd : (s.inp n).deadline = none := by simpa using hd
      split
      · have hset : LeavesUnits s (s.setInp n { s.inp n with raw := s.pin n, qualified := s.pin n }) :=
          (LeavesUnits.refl s).setInp fun _ => inputLaw_of_steady hd rfl
        exact hset.trans (leavesUnits_qualifiedChange (by rw [State.inp_setInp_self]; exact hd))
      · refine (LeavesUnits.refl s).setInp fun hlaw => inputLaw_of_qualifying nofun ?_ (by simpa using hsense) hdel
        exact fun he => hpin (he.trans (hlaw.1 hd).symm)

theorem leavesUnits_comparePin : LeavesUnits s (s.comparePin n) := by
  unfold State.comparePin
  split
  next h => exact leavesUnits_takeRawChange h
  · exact .refl s

theorem leavesUnits_completeIfEmpty : LeavesUnits s (s.completeIfEmpty n) :=
  .ite _ ((leavesUnits_closeDelivery s n).trans (leavesUnits_comparePin _ n))

theorem leavesUnits_completeQualification : LeavesUnits s (s.completeQualification n) := by
  have hset : LeavesUnits s (s.setInp n { s.inp n with qualified := (s.inp n).raw, deadline := none }) :=
    (LeavesUnits.refl s).setInp fun _ => inputLaw_of_steady rfl rfl
  refine .ite _ (.trans (hset.trans (leavesUnits_qualifiedChange ?_)) (leavesUnits_comparePin _ n))
  rw [State.inp_setInp_self]

theorem leavesUnits_whenOn {event : State → State} (h : LeavesUnits s (event s)) : LeavesUnits s (s.whenOn event) := by
  unfold State.whenOn
  split
  · exact .refl s
  · exact h

theorem leavesUnits_pinChange (level : Bool) : LeavesUnits s (s.pinChange n level) :=
  have hpin : LeavesUnits s (s.setPin n level) := .of_eq rfl rfl rfl
  hpin.trans (leavesUnits_whenOn _ (leavesUnits_comparePin _ n))

theorem leavesUnits_deliverNext : LeavesUnits s (s.deliverNext n) := by
  unfold State.deliverNext
  split
  · exact .refl s
  next d hd =>
    split
    · exact leavesUnits_completeIfEmpty s n
    next i rest _ =>
      have hleft : LeavesUnits s
          (s.setInp n { s.inp n with delivery := some { d with slots := rest, delivered := d.delivered + 1 } }) :=
        (LeavesUnits.refl s).setInp fun h => h.congr rfl rfl rfl rfl fun hnone => absurd (hd.symm.trans hnone) nofun
      exact ((hleft.trans (leavesUnits_noteExamination _)).trans (leavesUnits_launch _ _)).trans (leavesUnits_completeIfEmpty _ n)

theorem leavesUnits_joinBinding : LeavesUnits s (s.joinBinding i) :=
  (LeavesUnits.refl s).setInp fun h => h.congr rfl rfl rfl rfl id

theorem leavesUnits_unbind : LeavesUnits s (s.unbind i) := by
  refine .ite _ (LeavesUnits.trans ?_ (leavesUnits_completeIfEmpty _ _))
  exact (LeavesUnits.refl s).setInp fun h => h.congr rfl rfl rfl rfl fun hnone => by rw [hnone]; rfl

/-! ### Cancels -/

theorem leavesUnits_stopRun : LeavesUnits s (s.stopRun i) := by
  unfold State.stopRun
  split <;> exact .of_eq rfl rfl rfl

theorem leavesUnits_cancelActive : LeavesUnits s (s.cancelActive i) := by
  have hstopped : LeavesUnits s (if (s.slot i).state == .bound then s else s.stopRun i) := by
    split
    · exact .refl s
    · exact leavesUnits_stopRun s i
  unfold State.cancelActive
  dsimp only
  generalize (if (s.slot i).state == .bound then s else s.stopRun i) = u at hstopped ⊢
  have hunmarked : LeavesUnits s (u.setSlot i { u.slot i with pendingMark := false }) :=
    hstopped.trans (leavesUnits_setSlot u i _)
  refine ((hunmarked.trans (leavesUnits_unbind _ i)).trans (leavesUnits_giveFinal _ i .cancelled 0)).trans (.ite _ ?_)
  exact leavesUnits_setSlot _ i _

theorem leavesUnits_cancelRetiring : LeavesUnits s (s.cancelRetiring i) := by
  have hmarked := leavesUnits_setSlot s i { s.slot i with pendingMark := false, disarmMark := true }
  unfold State.cancelRetiring
  dsimp only
  split
  · exact hmarked
  · exact hmarked.trans (leavesUnits_unbind _ i)

variable {s i} in
theorem leavesUnits_cancel {t : State} (ht : s.cancel i = some t) : LeavesUnits s t := by
  unfold State.cancel at ht
  split at ht
  next => cases ht
  next => cases ht
  next => exact Option.some.inj ht ▸ leavesUnits_cancelActive s i
  next => exact Option.some.inj ht ▸ leavesUnits_cancelActive s i
  next => exact Option.some.inj ht ▸ leavesUnits_cancelActive s i
  next => exact Option.some.inj ht ▸ leavesUnits_cancelRetiring s i

end

end Sys2Proof.Machine
end

section
/-! Every command keeps the laws of the single units, and NOW moves by advances alone (spec/02, spec/06, spec/08). -/

namespace Sys2Proof.Machine

/-- The second state meets the laws of the time base, the input lines and the walk items if the first does. -/
structure KeepsUnitLaws (s t : State) : Prop where
  time : TimeLaw s.time → TimeLaw t.time
  input : ∀ n : InId, InputLaw (s.inp n) → InputLaw (t.inp n)
  walk : WalkLaw s.cmd → WalkLaw t.cmd

/-- What every command but an advance or a hardware reset does: NOW stays, and the laws of the units are kept. -/
structure KeepsUnits (s t : State) : Prop extends KeepsUnitLaws s t where
  now : t.time.now = s.time.now

section
variable {s t u : State}

theorem LeavesUnits.keepsUnits (h : LeavesUnits s t) : KeepsUnits s t := ⟨⟨h.time, h.input, by rw [h.cmd]; exact id⟩, h.now⟩

theorem KeepsUnits.of_eq (hcmd : t.cmd = s.cmd) (hins : t.ins = s.ins) (htime : t.time = s.time) : KeepsUnits s t :=
  (LeavesUnits.of_eq hcmd hins htime).keepsUnits

/-- A change that the command unit ends by writing its own items. -/
theorem LeavesUnits.thenCmd (h : LeavesUnits s t) (htime : u.time = t.time) (hins : u.ins = t.ins)
    (hwalk : WalkLaw s.cmd → WalkLaw u.cmd) : KeepsUnits s u :=
  ⟨⟨fun hs => by rw [htime]; exact h.time hs, fun n hs => by rw [State.inp_congr hins]; exact h.input n hs,
    hwalk⟩, by rw [htime]; exact h.now⟩

theorem KeepsUnits.whenOn {event : State → State} (h : KeepsUnits s (event s)) : KeepsUnits s (s.whenOn event) := by
  unfold State.whenOn
  split
  · exact (LeavesUnits.refl s).keepsUnits
  · exact h

/-! ### The laws through the time commands (R30 to R35) -/

/-- START from STOPPED, where both counts are 0 and nothing is held (R30). -/
theorem TimeLaw.start {t : TimeBase} (h : TimeLaw t) (hs : t.state = .stopped) (b : Bool) :
    TimeLaw { t with state := .running, prescaleCount := 0, examOwed := b } := by
  obtain ⟨hosc, -, -, -, hslow, hcoarse, -, -⟩ := h
  rw [hs] at hosc hslow
  exact ⟨hosc, nofun, Nat.zero_le _, fun _ => rfl, fun _ => hslow nofun, hcoarse, nofun, nofun⟩

/-- STOP discards the counts and the held advances (R31, R175). -/
theorem TimeLaw.stop {t : TimeBase} (h : TimeLaw t) :
    TimeLaw { t with
      state := .stopped, slowOsc := .off, prescaleCount := 0, slowCount := 0, heldAdvances := [], examOwed := false } := by
  obtain ⟨-, -, -, -, -, hcoarse, -, -⟩ := h
  exact ⟨rfl, nofun, Nat.zero_le _, fun _ => rfl, fun _ => rfl, hcoarse, nofun, fun _ => ⟨rfl, rfl⟩⟩

/-- DOZE takes a K within its range (R32). -/
theorem TimeLaw.doze {t : TimeBase} (h : TimeLaw t) (hs : t.state = .running) (hv : t.stepValid = true) :
    TimeLaw { t with state := .enteringDoze, coarse := t.stepReg, slowOsc := .starting, readyOutstanding := true } := by
  obtain ⟨-, -, hcount, -, hslow, -, -, -⟩ := h
  rw [hs] at hslow
  exact ⟨rfl, fun _ => rfl, hcount, nofun, fun _ => hslow nofun, of_decide_eq_true hv, fun _ => rfl, nofun⟩

/-- The ready event begins the coarse steps, with the K that DOZE took (R33). -/
theorem TimeLaw.ready {t : TimeBase} (h : TimeLaw t) (hs : t.state = .enteringDoze) :
    TimeLaw { t with state := .dozing, slowOsc := .ready, prescaleCount := 0, slowCount := 0, readyOutstanding := false } := by
  obtain ⟨-, -, -, -, -, hcoarse, hstep, -⟩ := h
  exact ⟨rfl, nofun, Nat.zero_le _, fun _ => rfl, fun _ => rfl, hcoarse, fun _ => hstep (.inl hs), nofun⟩

theorem leavesUnits_startTime (s : State) : LeavesUnits s s.startTime.state := by
  unfold State.startTime
  dsimp only
  split
  next hs => exact .of_time rfl rfl rfl fun h => h.start (by simpa using hs) _
  · exact .refl s

theorem leavesUnits_stopTime (s : State) : LeavesUnits s s.stopTime.state := by
  unfold State.stopTime
  split
  · exact .refl s
  · exact .of_time rfl rfl rfl TimeLaw.stop

theorem leavesUnits_dozeTime (s : State) : LeavesUnits s s.dozeTime.state := by
  unfold State.dozeTime
  split
  next hs =>
    split
    next hv => exact .of_time rfl rfl rfl fun h => h.doze (by simpa using hs) hv
    · exact .refl s
  · exact .refl s

theorem leavesUnits_wakeTime (s : State) : LeavesUnits s s.wakeTime.state := by
  unfold State.wakeTime
  split
  · exact .of_time rfl rfl (TimeBase.leaveDoze_now _) TimeLaw.leaveDoze
  · exact .refl s

theorem leavesUnits_takeReady (s : State) : LeavesUnits s s.takeReady := by
  unfold State.takeReady
  split
  next hs =>
    simp only [Bool.and_eq_true, beq_iff_eq] at hs
    obtain ⟨⟨hentering, -⟩, -⟩ := hs
    exact .of_time rfl rfl rfl fun h => h.ready hentering
  · exact .refl s

/-! ### Slot commands, COMMAND writes and visits -/

theorem leavesUnits_allocSlot (s : State) : LeavesUnits s s.allocSlot.state := by
  unfold State.allocSlot
  split
  · exact leavesUnits_setSlot s _ _
  · exact .refl s

theorem leavesUnits_releaseSlot (s : State) (i : SlotId) : LeavesUnits s (s.releaseSlot i).state := by
  unfold State.releaseSlot
  split
  · exact leavesUnits_setSlot s i _
  all_goals exact .refl s

theorem leavesUnits_enterArmed (s : State) (i : SlotId) : LeavesUnits s (s.enterArmed i) := by
  unfold State.enterArmed
  split
  · exact (leavesUnits_noteExamination s).trans (.of_eq rfl rfl rfl)
  · exact (leavesUnits_setSlot s i _).trans (leavesUnits_joinBinding _ i)
  · exact leavesUnits_setSlot s i _
  · exact leavesUnits_setSlot s i _

theorem leavesUnits_armSlot (s : State) (i : SlotId) : LeavesUnits s (s.armSlot i).state := by
  unfold State.armSlot
  split
  · split
    · exact .refl s
    · exact leavesUnits_enterArmed s i
  · exact .refl s

theorem leavesUnits_launchSlot (s : State) (i : SlotId) : LeavesUnits s (s.launchSlot i).state :=
  (leavesUnits_noteExamination s).trans (leavesUnits_launch _ _)

theorem leavesUnits_cancelSlot (s : State) (i : SlotId) : LeavesUnits s (s.cancelSlot i).state := by
  unfold State.cancelSlot
  split
  next ht => exact leavesUnits_cancel ht
  · exact .refl s

theorem LeavesUnits.complete (h : LeavesUnits s t) (result : ResultCode) (value : Byte) : KeepsUnits s (t.complete result value) :=
  h.thenCmd rfl rfl (by rw [← h.cmd]; exact id)

theorem keepsUnits_slotCommand {effect : State → SlotId → Answer} (h : ∀ i, LeavesUnits s (effect s i).state) :
    KeepsUnits s (s.slotCommand effect) := by
  unfold State.slotCommand
  split
  next i _ => exact (h i).complete _ _
  · exact (LeavesUnits.refl s).complete _ _

/-- A walk begins at slot 0 with nothing done (R143). -/
theorem keepsUnits_startWalk (s : State) {w : WalkCommand} (hw : w ≠ .none) : KeepsUnits s (s.startWalk w) := by
  unfold State.startWalk
  split
  · exact (LeavesUnits.refl s).thenCmd rfl rfl fun _ => ⟨fun _ => ⟨hw, Nat.zero_lt_succ _⟩, Nat.zero_le _, Nat.le_refl _⟩
  · exact (LeavesUnits.refl s).complete _ _

theorem keepsUnits_takeCommand (s : State) (code : Byte) : KeepsUnits s (s.takeCommand code) := by
  unfold State.takeCommand
  split
  · exact (leavesUnits_allocSlot s).complete _ _
  · exact keepsUnits_slotCommand (leavesUnits_armSlot s)
  · exact keepsUnits_slotCommand (leavesUnits_launchSlot s)
  · exact keepsUnits_slotCommand (leavesUnits_cancelSlot s)
  · exact keepsUnits_slotCommand (leavesUnits_releaseSlot s)
  · exact keepsUnits_startWalk s nofun
  · exact keepsUnits_startWalk s nofun
  · exact (leavesUnits_startTime s).complete _ _
  · exact (leavesUnits_stopTime s).complete _ _
  · exact (leavesUnits_dozeTime s).complete _ _
  · exact (leavesUnits_wakeTime s).complete _ _
  · exact (leavesUnits_flushReports s).complete _ _
  · exact (LeavesUnits.refl s).complete _ _

theorem keepsUnits_commandWrite (s : State) (code : Byte) : KeepsUnits s (s.commandWrite code) := by
  unfold State.commandWrite
  split
  · exact (LeavesUnits.refl s).thenCmd rfl rfl id
  · exact keepsUnits_takeCommand s code

theorem leavesUnits_walkAct (s : State) (i : SlotId) : LeavesUnits s (s.walkAct i) := by
  unfold State.walkAct
  split
  · exact (leavesUnits_noteExamination s).trans (leavesUnits_launch _ _)
  · cases ht : s.cancel i with
    | none => exact .refl s
    | some t => exact leavesUnits_cancel ht
  · exact .refl s

/-- A visit acts on a slot that qualifies, which leaves the walk items to the visit (R144, R149). -/
theorem State.takeVisit_eq {s : State} (hbusy : s.cmd.busy = true) (hpos : s.cmd.walkPos < 32) :
    s.takeVisit = visited (if s.qualifies ⟨s.cmd.walkPos, hpos⟩ then s.walkAct ⟨s.cmd.walkPos, hpos⟩ else s)
      (s.qualifies ⟨s.cmd.walkPos, hpos⟩) := by
  have hcmd := (leavesUnits_walkAct s ⟨s.cmd.walkPos, hpos⟩).cmd
  unfold State.takeVisit
  rw [dif_pos ⟨hbusy, hpos⟩]
  dsimp only
  generalize s.walkAct ⟨s.cmd.walkPos, hpos⟩ = u at hcmd ⊢
  by_cases hlast : s.cmd.walkPos = 31
  · cases s.qualifies ⟨s.cmd.walkPos, hpos⟩ <;>
      simp [visited, walkAfter, State.completeWalk, State.complete, ResultCode.code, hcmd, hlast]
  · cases s.qualifies ⟨s.cmd.walkPos, hpos⟩ <;> simp [visited, walkAfter, hcmd, hlast, beq_false_of_ne hlast]

/-- A visit counts one position and at most one slot (R136). -/
theorem walkLaw_walkAfter {c : CommandUnit} (h : WalkLaw c) (hbusy : c.busy = true) (acted : Bool) : WalkLaw (walkAfter c acted) := by
  obtain ⟨hwalk, -, hle⟩ := h
  obtain ⟨hcommand, hpos⟩ := hwalk hbusy
  have hcount : (if acted then c.walkCount + 1 else c.walkCount) ≤ c.walkPos + 1 := by split <;> omega
  unfold walkAfter
  dsimp only
  split
  · exact ⟨nofun, Nat.le_refl _, by dsimp only; omega⟩
  · exact ⟨fun _ => ⟨hcommand, by dsimp only; omega⟩, hpos, hcount⟩

theorem keepsUnits_takeVisit (s : State) : KeepsUnits s s.takeVisit := by
  by_cases h : s.cmd.busy = true ∧ s.cmd.walkPos < 32
  · obtain ⟨hbusy, hpos⟩ := h
    rw [State.takeVisit_eq hbusy hpos]
    have hacted := (leavesUnits_walkAct s ⟨s.cmd.walkPos, hpos⟩).ite (s.qualifies ⟨s.cmd.walkPos, hpos⟩ = true)
    refine hacted.thenCmd rfl rfl fun h => ?_
    simp only [visited, hacted.cmd]
    exact walkLaw_walkAfter h hbusy _
  · have hstay : s.takeVisit = s := dif_neg h
    rw [hstay]
    exact (LeavesUnits.refl s).keepsUnits

/-! ### Register accesses (spec/09) -/

/-- Sense OFF abandons a qualification, and the qualified level becomes the raw level (R108). -/
theorem InputLaw.write {l l' : InLine} (h : InputLaw l) {f : Nat} {b : Byte} (hw : l.write f b = some l') : InputLaw l' := by
  unfold InLine.write at hw
  split at hw
  · obtain rfl := Option.some.inj hw
    unfold InLine.writeConfig
    dsimp only
    split
    · exact inputLaw_of_steady rfl rfl
    next hoff =>
      refine ⟨h.1, fun hd => ?_⟩
      obtain ⟨hlevels, -, hdel⟩ := h.2 hd
      refine ⟨hlevels, fun hs => hoff ?_, hdel⟩
      rw [Bool.and_eq_true, beq_iff_eq]
      exact ⟨hs, Option.isSome_iff_ne_none.2 hd⟩
  · obtain rfl := Option.some.inj hw
    exact h.congr rfl rfl rfl rfl id
  · cases hw

/-- PRESCALE is stored in STOPPED alone, where the prescale count is 0 (R38, R27). -/
theorem TimeLaw.writePrescale {t : TimeBase} (h : TimeLaw t) (hs : t.state = .stopped) (b : Byte) :
    TimeLaw { t with prescale := b } := by
  obtain ⟨hosc, hready, -, hzero, hslow, hcoarse, hstep, hstopped⟩ := h
  refine ⟨hosc, hready, ?_, hzero, hslow, hcoarse, hstep, hstopped⟩
  rw [show t.prescaleCount = 0 from hzero (.inl hs)]
  exact Nat.zero_le _

/-- STEP is stored outside a doze, where K need not equal it (R38, R32). -/
theorem TimeLaw.writeStep {t : TimeBase} (h : TimeLaw t) (hs : t.stepWritable = true) (v : Half) :
    TimeLaw { t with stepReg := v } := by
  obtain ⟨hosc, hready, hcount, hzero, hslow, hcoarse, -, hstopped⟩ := h
  refine ⟨hosc, hready, hcount, hzero, hslow, hcoarse, fun hdoze => ?_, hstopped⟩
  rcases (TimeBase.stepWritable_iff t).1 hs with hs | hs <;> simp [hs] at hdoze

theorem leavesUnits_writeSetup {f : Nat} {b : Byte} (ht : s.writeSetup f b = some t) : LeavesUnits s t := by
  unfold State.writeSetup at ht
  split at ht
  · split at ht
    next hs => exact Option.some.inj ht ▸ .of_time rfl rfl rfl fun h => h.writePrescale (by simpa using hs) b
    · cases ht
  · split at ht
    next hs => exact Option.some.inj ht ▸ .of_time rfl rfl rfl fun h => h.writeStep hs _
    · cases ht
  · split at ht
    next hs => exact Option.some.inj ht ▸ .of_time rfl rfl rfl fun h => h.writeStep hs _
    · cases ht
  · exact Option.some.inj ht ▸ .of_eq rfl rfl rfl
  · cases ht

theorem leavesUnits_writeField {r : RecordRef} {f : Nat} {b : Byte} (ht : s.writeField r f b = some t) : LeavesUnits s t := by
  unfold State.writeField at ht
  split at ht
  · obtain ⟨x, -, rfl⟩ := Option.map_eq_some_iff.1 ht
    exact leavesUnits_setSlot s _ x
  · obtain ⟨l, hl, rfl⟩ := Option.map_eq_some_iff.1 ht
    exact (LeavesUnits.refl s).setInp fun h => h.write hl
  · exact leavesUnits_writeSetup ht
  · cases ht
  · cases ht

theorem leavesUnits_dataWrite (s : State) (b : Byte) : LeavesUnits s (s.dataWrite b) := by
  have hwritten : LeavesUnits s
      ((if s.fieldInRange then s.writeField s.selected s.port.fieldSel.toNat b else none).getD s.reject) := by
    cases ht : (if s.fieldInRange then s.writeField s.selected s.port.fieldSel.toNat b else none) with
    | none => exact .of_eq rfl rfl rfl
    | some t =>
      split at ht
      · exact leavesUnits_writeField ht
      · cases ht
  exact hwritten.trans (.of_eq rfl rfl rfl)

theorem leavesUnits_dataRead (s : State) : LeavesUnits s s.dataRead := by
  have hsnapshot : LeavesUnits s s.snapshotOnRead := by
    unfold State.snapshotOnRead
    split
    · exact .ite _ (.of_eq rfl rfl rfl)
    all_goals exact .refl s
  exact hsnapshot.trans (.of_eq rfl rfl rfl)

theorem leavesUnits_recSelWrite (s : State) (b : Byte) : LeavesUnits s (s.recSelWrite b) := by
  unfold State.recSelWrite
  dsimp only
  split <;> exact .of_eq rfl rfl rfl

theorem leavesUnits_setOuts (s : State) (outs : Vector OutLine 16) : LeavesUnits s { s with outs := outs } := .of_eq rfl rfl rfl

theorem leavesUnits_setBank (s : State) (bank : Bank) (b : Byte) (set : OutLine → Bool → OutLine) :
    LeavesUnits s (s.setBank bank b set) :=
  leavesUnits_setOuts s _

/-- A soft reset leaves the time base and the levels and qualifications of the lines, and abandons a walk (R40, R115, R151). -/
theorem keepsUnits_softReset (s : State) : KeepsUnits s s.softReset := by
  refine ⟨⟨id, fun n h => ?_, fun _ => ⟨nofun, Nat.zero_le _, Nat.le_refl _⟩⟩, rfl⟩
  have hline : s.softReset.inp n = (s.inp n).softReset := by simp [State.softReset, State.inp]
  rw [hline]
  exact h.congr rfl rfl rfl rfl fun _ => rfl

theorem keepsUnits_controlWrite (s : State) (b : Byte) : KeepsUnits s (s.controlWrite b) := by
  unfold State.controlWrite
  split
  · exact keepsUnits_softReset s
  · exact (LeavesUnits.refl s).keepsUnits

theorem keepsUnits_registerWrite (s : State) (address : BitVec 5) (b : Byte) : KeepsUnits s (s.registerWrite address b) := by
  unfold State.registerWrite
  split
  · exact keepsUnits_controlWrite s b
  · exact .of_eq rfl rfl rfl
  · exact .of_eq rfl rfl rfl
  · exact keepsUnits_commandWrite s b
  · exact (LeavesUnits.refl s).thenCmd rfl rfl id
  · exact (leavesUnits_recSelWrite s b).keepsUnits
  · exact .of_eq rfl rfl rfl
  · exact (leavesUnits_dataWrite s b).keepsUnits
  · exact (leavesUnits_popReport s).keepsUnits
  · exact (leavesUnits_setBank s .low b _).keepsUnits
  · exact (leavesUnits_setBank s .high b _).keepsUnits
  · exact (leavesUnits_setBank s .low b _).keepsUnits
  · exact (leavesUnits_setBank s .high b _).keepsUnits
  · exact (leavesUnits_setBank s .low b _).keepsUnits
  · exact (leavesUnits_setBank s .high b _).keepsUnits
  · exact .of_eq rfl rfl rfl

/-! ### Advances (R24, R27, R34, R175) -/

theorem KeepsUnitLaws.refl (s : State) : KeepsUnitLaws s s := ⟨id, fun _ => id, id⟩

theorem KeepsUnitLaws.trans (h₁ : KeepsUnitLaws s t) (h₂ : KeepsUnitLaws t u) : KeepsUnitLaws s u :=
  ⟨h₂.time ∘ h₁.time, fun n => h₂.input n ∘ h₁.input n, h₂.walk ∘ h₁.walk⟩

theorem KeepsUnitLaws.whenOn {event : State → State} (h : KeepsUnitLaws s (event s)) : KeepsUnitLaws s (s.whenOn event) := by
  unfold State.whenOn
  split
  · exact .refl s
  · exact h

/-- An advance writes the time base alone. -/
theorem KeepsUnitLaws.of_time (hcmd : t.cmd = s.cmd) (hins : t.ins = s.ins) (htime : TimeLaw s.time → TimeLaw t.time) :
    KeepsUnitLaws s t :=
  ⟨htime, fun n => by rw [State.inp_congr hins]; exact id, by rw [hcmd]; exact id⟩

/-- Outside STOPPED advances may be made and held back (R175). -/
theorem TimeLaw.move {t : TimeBase} (h : TimeLaw t) (hs : t.state ≠ .stopped) (now : Tick) (held : List Tick) (b : Bool) :
    TimeLaw { t with now := now, heldAdvances := held, examOwed := b } := by
  obtain ⟨hosc, hready, hcount, hzero, hslow, hcoarse, hstep, -⟩ := h
  exact ⟨hosc, hready, hcount, hzero, hslow, hcoarse, hstep, fun h => absurd h hs⟩

/-- An advance that falls due outside STOPPED: made or held back. -/
theorem KeepsUnitLaws.advanceDue (h : KeepsUnitLaws s t) (hs : t.time.state ≠ .stopped) (size : Tick) :
    KeepsUnitLaws s (t.advanceDue size) := by
  refine h.trans ?_
  unfold State.advanceDue
  split <;> exact .of_time rfl rfl fun h => h.move hs _ _ _

theorem advanceDue_now (s : State) (size : Tick) :
    (s.advanceDue size).time.now = s.time.now ∨ (s.advanceDue size).time.now = s.time.now + size := by
  unfold State.advanceDue
  split
  · exact .inl rfl
  · exact .inr rfl

theorem TimeBase.not_stopped_of_onClkin {t : TimeBase} (h : t.onClkin = true) : t.state ≠ .stopped := by
  rcases (TimeBase.onClkin_iff t).1 h with hs | hs <;> simp [hs]

/-- The prescale count may stand anywhere below its divisor while CLKIN carries NOW (R27). -/
theorem TimeLaw.countTo {t : TimeBase} (h : TimeLaw t) (hs : t.onClkin = true) {count : Byte}
    (hc : count.toNat ≤ t.prescale.toNat) : TimeLaw { t with prescaleCount := count } := by
  obtain ⟨hosc, hready, -, -, hslow, hcoarse, hstep, hstopped⟩ := h
  refine ⟨hosc, hready, hc, fun hne => ?_, hslow, hcoarse, hstep, hstopped⟩
  rcases (TimeBase.onClkin_iff t).1 hs with hs | hs <;> simp [hs] at hne

/-- The slow-period count may stand anywhere in DOZING (section 2.1). -/
theorem TimeLaw.countSlow {t : TimeBase} (h : TimeLaw t) (hs : t.state = .dozing) (count : Nat) :
    TimeLaw { t with slowCount := count } := by
  obtain ⟨hosc, hready, hcount, hzero, -, hcoarse, hstep, hstopped⟩ := h
  exact ⟨hosc, hready, hcount, hzero, fun hne => absurd hs hne, hcoarse, hstep, hstopped⟩

theorem keepsUnitLaws_clkinEdge (s : State) : KeepsUnitLaws s s.clkinEdge := by
  unfold State.clkinEdge
  split
  next hclkin =>
    have hcounted : ∀ count : Byte, count.toNat ≤ s.time.prescale.toNat →
        KeepsUnitLaws s { s with time.prescaleCount := count } :=
      fun _ hc => .of_time rfl rfl fun h => h.countTo hclkin hc
    split
    · exact (hcounted 0 (Nat.zero_le _)).advanceDue (TimeBase.not_stopped_of_onClkin hclkin) 1
    next hlt =>
      refine hcounted _ ?_
      rw [BitVec.toNat_add]
      exact (Nat.mod_le _ _).trans (by simp [TimeBase.divisor] at hlt ⊢; omega)
  · exact .refl s

theorem keepsUnitLaws_prescalerFull (s : State) : KeepsUnitLaws s s.prescalerFull := by
  unfold State.prescalerFull
  split
  next hclkin =>
    have hcounted : KeepsUnitLaws s { s with time.prescaleCount := 0 } :=
      .of_time rfl rfl fun h => h.countTo hclkin (Nat.zero_le _)
    exact hcounted.advanceDue (TimeBase.not_stopped_of_onClkin hclkin) 1
  · exact .refl s

theorem keepsUnitLaws_slowPart (s : State) : KeepsUnitLaws s s.slowPart := by
  unfold State.slowPart
  split
  next hs => exact .of_time rfl rfl fun h => h.countSlow (by simpa using hs) _
  · exact .refl s

theorem keepsUnitLaws_slowPeriod (s : State) : KeepsUnitLaws s s.slowPeriod := by
  unfold State.slowPeriod
  split
  next hs =>
    replace hs : s.time.state = .dozing := by simpa using hs
    have hcounted : KeepsUnitLaws s { s with time.slowCount := 0 } := .of_time rfl rfl fun h => h.countSlow hs 0
    exact hcounted.advanceDue (fun h => absurd (hs.symm.trans h) nofun) _
  · exact .refl s

/-- A held advance is made outside STOPPED, where none is held (R175). -/
theorem keepsUnitLaws_makeHeld (s : State) : KeepsUnitLaws s s.makeHeld := by
  cases hheld : s.time.heldAdvances with
  | nil =>
    have hstay : s.makeHeld = s := by simp [State.makeHeld, hheld]
    rw [hstay]
    exact .refl s
  | cons size rest =>
    rw [State.makeHeld_eq hheld]
    split
    · exact .refl s
    · refine .of_time rfl rfl fun h => h.move (fun hs => ?_) _ _ _
      obtain ⟨-, -, -, -, -, -, -, hstopped⟩ := h
      exact absurd (hheld.symm.trans (hstopped hs).1) nofun

theorem keepsUnitLaws_advance (s : State) (source : AdvanceSource) : KeepsUnitLaws s (s.advance source) := by
  cases source with
  | clkinEdge => exact keepsUnitLaws_clkinEdge s
  | prescaler => exact keepsUnitLaws_prescalerFull s
  | slowPart => exact keepsUnitLaws_slowPart s
  | slowPeriod => exact keepsUnitLaws_slowPeriod s
  | held => exact keepsUnitLaws_makeHeld s

/-! ### The hardware reset (R40, R114, R150) -/

theorem keepsUnitLaws_reset {pins : Vector Bool 8} (htime : t.time = {}) (hins : t.ins = (State.resetWith pins).ins) (hcmd : t.cmd = {}) :
    KeepsUnitLaws s t := by
  refine ⟨fun _ => ?_, fun n _ => ?_, fun _ => ?_⟩
  · rw [htime]; decide
  · rw [State.inp_congr hins, State.resetWith_inp]
    exact inputLaw_of_steady rfl rfl
  · rw [hcmd]; decide

/-! ### Every command -/

/-- Every command but an advance and the hardware reset's two leaves NOW and keeps the laws of the units. -/
theorem exec_keepsUnits (s : State) {c : Instr} (hadvance : ∀ source, c ≠ .advance source) (hreset : c ≠ .hardwareReset)
    (hrelease : ∀ levels, c ≠ .resetRelease levels) : ∃ t, exec c s = .next t ∧ KeepsUnits s t := by
  have hcommand : ∀ code, KeepsUnits s (s.whenOn (State.commandWrite code)) := fun code => (keepsUnits_commandWrite s code).whenOn
  have hevent : ∀ {event : State → State}, LeavesUnits s (event s) → KeepsUnits s (s.whenOn event) := fun h => h.keepsUnits.whenOn
  cases c with
  | alloc => exact ⟨_, rfl, hcommand _⟩
  | arm => exact ⟨_, rfl, hcommand _⟩
  | launch => exact ⟨_, rfl, hcommand _⟩
  | cancel => exact ⟨_, rfl, hcommand _⟩
  | release => exact ⟨_, rfl, hcommand _⟩
  | launchGroup => exact ⟨_, rfl, hcommand _⟩
  | cancelGroup => exact ⟨_, rfl, hcommand _⟩
  | start => exact ⟨_, rfl, hcommand _⟩
  | stop => exact ⟨_, rfl, hcommand _⟩
  | doze => exact ⟨_, rfl, hcommand _⟩
  | wake => exact ⟨_, rfl, hcommand _⟩
  | flush => exact ⟨_, rfl, hcommand _⟩
  | badCommand code => exact ⟨_, rfl, hcommand code⟩
  | pop value => exact ⟨_, rfl, hevent (leavesUnits_popReport s)⟩
  | softReset value => exact ⟨_, rfl, (keepsUnits_controlWrite s value).whenOn⟩
  | hardwareReset => exact absurd rfl hreset
  | resetRelease levels => exact absurd rfl (hrelease levels)
  | recSelWrite value => exact ⟨_, rfl, hevent (leavesUnits_recSelWrite s value)⟩
  | dataRead => exact ⟨_, rfl, hevent (leavesUnits_dataRead s)⟩
  | dataWrite value => exact ⟨_, rfl, hevent (leavesUnits_dataWrite s value)⟩
  | now0Read => exact ⟨_, rfl, hevent (.of_eq rfl rfl rfl)⟩
  | irqFlagsWrite value => exact ⟨_, rfl, hevent (.of_eq rfl rfl rfl)⟩
  | irqEnableWrite value => exact ⟨_, rfl, hevent (.of_eq rfl rfl rfl)⟩
  | lineRestWrite bank value => exact ⟨_, rfl, hevent (leavesUnits_setBank s bank value _)⟩
  | lineEnWrite bank value => exact ⟨_, rfl, hevent (leavesUnits_setBank s bank value _)⟩
  | lineOdWrite bank value => exact ⟨_, rfl, hevent (leavesUnits_setBank s bank value _)⟩
  | registerWrite address value => exact ⟨_, rfl, (keepsUnits_registerWrite s address value).whenOn⟩
  | advance source => exact absurd rfl (hadvance source)
  | readyEvent => exact ⟨_, rfl, hevent (leavesUnits_takeReady s)⟩
  | rawChange line level => exact ⟨_, rfl, (leavesUnits_pinChange s line level).keepsUnits⟩
  | qualificationComplete line => exact ⟨_, rfl, hevent (leavesUnits_completeQualification s line)⟩
  | startExpiry => exact ⟨_, rfl, hevent (leavesUnits_expire s _ leavesUnits_startExpiry)⟩
  | endExpiry => exact ⟨_, rfl, hevent (leavesUnits_expire s _ leavesUnits_endExpiry)⟩
  | inputLaunch line => exact ⟨_, rfl, hevent (leavesUnits_deliverNext s line)⟩
  | visit => exact ⟨_, rfl, (keepsUnits_takeVisit s).whenOn⟩

/-- Every command keeps the laws of the units. -/
theorem exec_keepsUnitLaws {c : Instr} (he : exec c s = .next t) : KeepsUnitLaws s t := by
  by_cases hreset : c = .hardwareReset
  · subst hreset
    exact Host.Outcome.next.inj he ▸ keepsUnitLaws_reset (pins := s.pins) rfl rfl rfl
  by_cases hrelease : ∃ levels, c = .resetRelease levels
  · obtain ⟨levels, rfl⟩ := hrelease
    exact Host.Outcome.next.inj he ▸ keepsUnitLaws_reset (pins := pinLevels levels) rfl rfl rfl
  by_cases hadvance : ∃ source, c = .advance source
  · obtain ⟨source, rfl⟩ := hadvance
    exact Host.Outcome.next.inj he ▸ (keepsUnitLaws_advance s source).whenOn
  · obtain ⟨u, hu, hkeeps⟩ := exec_keepsUnits s (not_exists.1 hadvance) hreset (not_exists.1 hrelease)
    exact Host.Outcome.next.inj (hu.symm.trans he) ▸ hkeeps.toKeepsUnitLaws

end

/-- Settles O59: the queue's front leaves the units as they are, and its command keeps their laws. -/
theorem stepKeepsUnitLaws : Obligations.StepKeepsUnitLaws := by
  intro s t hstep
  have hkeeps : KeepsUnitLaws s t := by
    unfold step at hstep
    split at hstep
    next => exact Host.Outcome.next.inj hstep ▸ .refl s
    next c rest _ =>
      have hfront : KeepsUnitLaws s { s with pending := rest } := .of_time rfl rfl id
      exact hfront.trans (exec_keepsUnitLaws hstep)
  exact ⟨hkeeps.time, fun h n => hkeeps.input n (h n), hkeeps.walk⟩

/-! ### NOW -/

/-- By how much an advance moves NOW, by its source (R24, R27, R34, R175). -/
theorem advance_now (s : State) (source : AdvanceSource) :
    (s.advance source).time.now = s.time.now ∨ (s.advance source).time.now = s.time.now + 1 ∨
      (s.advance source).time.now = s.time.now + s.time.coarse.setWidth 24 ∨
      ∃ size rest, s.time.heldAdvances = size :: rest ∧ (s.advance source).time.now = s.time.now + size := by
  cases source with
  | clkinEdge =>
    show s.clkinEdge.time.now = _ ∨ s.clkinEdge.time.now = _ ∨ _
    unfold State.clkinEdge
    split
    · split
      · exact (advanceDue_now { s with time.prescaleCount := 0 } 1).imp_right .inl
      · exact .inl rfl
    · exact .inl rfl
  | prescaler =>
    show s.prescalerFull.time.now = _ ∨ s.prescalerFull.time.now = _ ∨ _
    unfold State.prescalerFull
    split
    · exact (advanceDue_now { s with time.prescaleCount := 0 } 1).imp_right .inl
    · exact .inl rfl
  | slowPart =>
    refine .inl ?_
    show s.slowPart.time.now = _
    unfold State.slowPart
    split <;> rfl
  | slowPeriod =>
    show s.slowPeriod.time.now = _ ∨ _ ∨ s.slowPeriod.time.now = _ ∨ _
    unfold State.slowPeriod
    split
    · exact (advanceDue_now { s with time.slowCount := 0 } _).imp_right fun h => .inr (.inl h)
    · exact .inl rfl
  | held =>
    show s.makeHeld.time.now = _ ∨ _ ∨ _ ∨ ∃ size rest, _ ∧ s.makeHeld.time.now = _
    unfold State.makeHeld
    split
    · exact .inl rfl
    next size rest hheld =>
      split
      · exact .inl rfl
      · exact .inr (.inr (.inr ⟨size, rest, hheld, rfl⟩))

/-- Settles O27: an advance moves NOW by its source, every other command leaves it. -/
theorem nowMovesOnlyByAdvances : Obligations.NowMovesOnlyByAdvances := by
  intro c s t he
  constructor
  · intro hadvance hreset hrelease
    obtain ⟨u, hu, hkeeps⟩ := exec_keepsUnits s hadvance hreset hrelease
    exact Host.Outcome.next.inj (hu.symm.trans he) ▸ hkeeps.now
  · rintro source rfl
    obtain rfl := Host.Outcome.next.inj he
    by_cases hon : s.inReset = true
    · exact .inl (by rw [State.whenOn_of_reset hon])
    · rw [State.whenOn_of_on (by simpa using hon)]
      exact advance_now s source

end Sys2Proof.Machine
end

section
/-! The time base, command by command and event by event (spec/02, spec/10 section 10.2), and the read of NOW_0 (R39, R162). -/

namespace Sys2Proof.Machine

/-! ### Times (R25, R26) -/

/-- Settles O19: the distance on the circle in natural numbers. -/
theorem reachedAndLateness : Obligations.ReachedAndLateness := by
  intro d now
  rw [← distance_eq]
  exact ⟨reached_iff d now, lateness_toNat d now⟩

/-! ### Time commands -/

section
variable {s : State}

theorem exec_start (h : TakesCommands s) :
    exec .start s = .next (withResult s.startTime.state s.startTime.result.code s.startTime.value) :=
  congrArg Host.Outcome.next (State.whenOn_commandWrite h 0x08)

theorem exec_stop (h : TakesCommands s) :
    exec .stop s = .next (withResult s.stopTime.state s.stopTime.result.code s.stopTime.value) :=
  congrArg Host.Outcome.next (State.whenOn_commandWrite h 0x09)

theorem exec_doze (h : TakesCommands s) :
    exec .doze s = .next (withResult s.dozeTime.state s.dozeTime.result.code s.dozeTime.value) :=
  congrArg Host.Outcome.next (State.whenOn_commandWrite h 0x0A)

theorem exec_wake (h : TakesCommands s) :
    exec .wake s = .next (withResult s.wakeTime.state s.wakeTime.result.code s.wakeTime.value) :=
  congrArg Host.Outcome.next (State.whenOn_commandWrite h 0x0B)

theorem State.startTime_of_stopped (hs : s.time.state = .stopped) :
    let started : State := { s with time := { s.time with state := .running, prescaleCount := 0 } }
    s.startTime = ⟨{ started with time := { started.time with examOwed := followUpWaits started } }, .ok, 0⟩ := by
  simp [State.startTime, hs, State.followUpOwed_eq]

theorem State.startTime_of_not_stopped (hs : s.time.state ≠ .stopped) : s.startTime = ⟨s, .badState, 0⟩ := by
  simp [State.startTime, hs]

theorem State.stopTime_of_stopped (hs : s.time.state = .stopped) : s.stopTime = ⟨s, .badState, 0⟩ := by
  simp [State.stopTime, hs]

theorem State.stopTime_of_not_stopped (hs : s.time.state ≠ .stopped) :
    s.stopTime = ⟨{ s with time := { s.time with
      state := .stopped, slowOsc := .off, prescaleCount := 0, slowCount := 0, heldAdvances := [], examOwed := false } }, .ok, 0⟩ := by
  simp [State.stopTime, hs]

/-- Settles O20, by the time state. -/
theorem startAndStop : Obligations.StartAndStop := by
  intro s h
  refine ⟨fun hs => ⟨?_, ?_⟩, fun hs => ⟨?_, ?_⟩⟩
  · rw [exec_start h, State.startTime_of_stopped hs]
    rfl
  · rw [exec_stop h, State.stopTime_of_stopped hs]
    rfl
  · rw [exec_start h, State.startTime_of_not_stopped hs]
    rfl
  · rw [exec_stop h, State.stopTime_of_not_stopped hs]
    rfl

/-- A STEP that DOZE accepts (R32). -/
theorem TimeBase.stepValid_iff (t : TimeBase) : t.stepValid = true ↔ 1 ≤ t.stepReg.toNat ∧ t.stepReg.toNat ≤ 4096 :=
  decide_eq_true_iff

theorem State.dozeTime_of_valid (hs : s.time.state = .running) (hv : s.time.stepValid = true) :
    s.dozeTime = ⟨{ s with time := { s.time with
      state := .enteringDoze, coarse := s.time.stepReg, slowOsc := .starting, readyOutstanding := true } }, .ok, 0⟩ := by
  simp [State.dozeTime, hs, hv]

theorem State.dozeTime_of_invalid (hs : s.time.state = .running) (hv : ¬ s.time.stepValid = true) :
    s.dozeTime = ⟨s, .badField, 2⟩ := by
  simp [State.dozeTime, hs, hv]

theorem State.dozeTime_of_not_running (hs : s.time.state ≠ .running) : s.dozeTime = ⟨s, .badState, 0⟩ := by
  simp [State.dozeTime, hs]

/-- Settles O21, by the time state and STEP. -/
theorem dozeTakesStep : Obligations.DozeTakesStep := by
  intro s h
  refine ⟨fun hs hlo hhi => ?_, fun hs hbad => ?_, fun hs => ?_⟩
  · rw [exec_doze h, State.dozeTime_of_valid hs ((TimeBase.stepValid_iff _).2 ⟨hlo, hhi⟩)]
    rfl
  · have hv : ¬ s.time.stepValid = true := by
      rw [TimeBase.stepValid_iff]
      omega
    rw [exec_doze h, State.dozeTime_of_invalid hs hv]
    rfl
  · rw [exec_doze h, State.dozeTime_of_not_running hs]
    rfl

/-- The return to RUNNING, as the rules write it out (R35). -/
theorem TimeBase.leaveDoze_eq {t : TimeBase} (h : t.inDoze = true) : t.leaveDoze = dozeLeft t := by
  rcases (TimeBase.inDoze_iff t).1 h with hs | hs <;> simp [TimeBase.leaveDoze, dozeLeft, hs]

@[simp] theorem TimeBase.leaveDoze_state (t : TimeBase) : t.leaveDoze.state = .running := by
  unfold TimeBase.leaveDoze; split <;> rfl

theorem State.wakeTime_of_doze (hs : s.time.state = .enteringDoze ∨ s.time.state = .dozing) :
    s.wakeTime = ⟨{ s with time := dozeLeft s.time }, .ok, 0⟩ := by
  have hdoze := (TimeBase.inDoze_iff s.time).2 hs
  rw [← TimeBase.leaveDoze_eq hdoze]
  exact if_pos hdoze

theorem State.wakeTime_of_awake (hs : s.time.state = .stopped ∨ s.time.state = .running) : s.wakeTime = ⟨s, .badState, 0⟩ := by
  rcases hs with hs | hs <;> simp [State.wakeTime, TimeBase.inDoze, hs]

/-- A wake request outside a doze changes nothing (R36). -/
theorem woken_of_awake (hs : s.time.state = .stopped ∨ s.time.state = .running) : woken s = s := by
  rcases hs with hs | hs <;> simp [woken, hs]

/-- A wake request in a doze ends it and sets WAK (R36). -/
theorem woken_of_doze (hs : s.time.state = .enteringDoze ∨ s.time.state = .dozing) :
    (woken s).time.state = .running ∧ (woken s).port.flags.wak = true := by
  unfold woken
  rw [if_pos hs, ← TimeBase.leaveDoze_eq ((TimeBase.inDoze_iff _).2 hs)]
  exact ⟨TimeBase.leaveDoze_state _, rfl⟩

/-- The time state is that of a doze, or one that a wake request leaves (R28). -/
theorem TimeState.doze_or_awake (x : TimeState) : (x = .enteringDoze ∨ x = .dozing) ∨ x = .stopped ∨ x = .running := by
  cases x <;> simp

/-- A WAKE leaves no doze (R35). -/
theorem State.wakeTime_awake (s : State) :
    s.wakeTime.state.time.state = .stopped ∨ s.wakeTime.state.time.state = .running := by
  unfold State.wakeTime
  split
  · exact .inr (TimeBase.leaveDoze_state _)
  next hdoze =>
    rw [TimeBase.inDoze_iff] at hdoze
    exact (TimeState.doze_or_awake s.time.state).resolve_left hdoze

/-- Settles O22, by the time state, and both orders of WAKE and a wake request. -/
theorem wakeEndsDoze : Obligations.WakeEndsDoze := by
  intro s h
  refine ⟨fun hs => ?_, fun hs => ?_, fun hs => ?_, fun t ht => ?_, fun hs => ?_⟩
  · rw [exec_wake h, State.wakeTime_of_doze (.inl hs), dozeLeft, hs]
    rfl
  · rw [exec_wake h, State.wakeTime_of_doze (.inr hs), dozeLeft, hs]
    rfl
  · rw [exec_wake h, State.wakeTime_of_awake hs]
    rfl
  · rw [exec_wake h] at ht
    obtain rfl := Host.Outcome.next.inj ht
    exact woken_of_awake (State.wakeTime_awake s)
  · obtain ⟨hrunning, hwak⟩ := woken_of_doze hs
    have htakes : TakesCommands (woken s) := by
      rw [TakesCommands, woken_inReset, woken_cmd]
      exact h
    refine ⟨hwak, ?_⟩
    rw [exec_wake htakes, State.wakeTime_of_awake (.inr hrunning)]
    rfl

/-! ### Events of the time base -/

theorem exec_readyEvent (h : s.inReset = false) : exec .readyEvent s = .next s.takeReady :=
  congrArg Host.Outcome.next (State.whenOn_of_on h _)

/-- Settles O23, by the time state. -/
theorem readyEventEntersDozing : Obligations.ReadyEventEntersDozing := by
  intro s h
  refine ⟨fun hs hosc hready => ?_, fun hs => ?_⟩
  · rw [exec_readyEvent h, State.takeReady]
    simp only [hs, hosc, hready, beq_self_eq_true, Bool.and_self, if_true]
  · rw [exec_readyEvent h, State.takeReady]
    simp [hs]

theorem exec_advance (h : s.inReset = false) (source : AdvanceSource) : exec (.advance source) s = .next (s.advance source) :=
  congrArg Host.Outcome.next (State.whenOn_of_on h _)

/-- An edge short of the divisor is counted (R27). -/
theorem State.clkinEdge_of_lt (hs : s.time.onClkin = true) (hc : s.time.prescaleCount.toNat < s.time.prescale.toNat) :
    s.clkinEdge = { s with time := { s.time with prescaleCount := s.time.prescaleCount + 1 } } := by
  unfold State.clkinEdge TimeBase.divisor
  rw [if_pos hs, if_neg (by omega)]

theorem State.prescalerFull_of_clkin (hs : s.time.onClkin = true) :
    s.prescalerFull = advanceTaken { s with time := { s.time with prescaleCount := 0 } } 1 := by
  unfold State.prescalerFull
  rw [if_pos hs, State.advanceDue_eq]

/-- The count does not matter to the event that brings it to its divisor (R27). -/
theorem State.prescalerFull_of_counted (hs : s.time.onClkin = true) (count : Byte) :
    State.prescalerFull { s with time := { s.time with prescaleCount := count } } = s.prescalerFull := by
  unfold State.prescalerFull
  exact (if_pos hs).trans (if_pos hs).symm

/-- The edge that brings the count to its divisor makes an advance fall due (R27). -/
theorem State.clkinEdge_of_le (hs : s.time.onClkin = true) (hc : s.time.prescale.toNat ≤ s.time.prescaleCount.toNat) :
    s.clkinEdge = s.prescalerFull := by
  unfold State.clkinEdge State.prescalerFull TimeBase.divisor
  rw [if_pos hs, if_pos (by omega), if_pos hs]

/-- Neither CLKIN nor the prescaler does anything while CLKIN does not carry NOW (R28). -/
theorem State.clkin_of_off (hs : ¬ s.time.onClkin = true) : s.clkinEdge = s ∧ s.prescalerFull = s :=
  ⟨if_neg hs, if_neg hs⟩

theorem State.slowPeriod_of_dozing (hs : s.time.state = .dozing) :
    s.slowPeriod = advanceTaken { s with time := { s.time with slowCount := 0 } } (s.time.coarse.setWidth 24) := by
  unfold State.slowPeriod
  rw [if_pos (by simp [hs]), State.advanceDue_eq]

theorem State.slowPart_of_dozing (hs : s.time.state = .dozing) :
    s.slowPart = { s with time := { s.time with slowCount := s.time.slowCount + 1 } } := by
  simp [State.slowPart, hs]

theorem State.slow_of_not_dozing (hs : s.time.state ≠ .dozing) : s.slowPeriod = s ∧ s.slowPart = s := by
  simp [State.slowPeriod, State.slowPart, hs]

/-- Settles O24, by the time state and the source of the advance. -/
theorem advanceFallsDue : Obligations.AdvanceFallsDue := by
  intro s h
  simp only [exec_advance h, State.advance, Host.Outcome.next.injEq]
  refine ⟨fun hs => ?_, fun hs => ?_, fun hs => ⟨State.slowPeriod_of_dozing hs, State.slowPart_of_dozing hs⟩,
    State.slow_of_not_dozing⟩
  · have hclkin := (TimeBase.onClkin_iff _).2 hs
    refine ⟨fun hc => State.clkinEdge_of_lt hclkin (by omega), fun hc => ?_, State.prescalerFull_of_clkin hclkin⟩
    rw [State.clkinEdge_of_le hclkin (by omega), State.prescalerFull_of_clkin hclkin]
  · refine State.clkin_of_off fun hclkin => ?_
    rcases (TimeBase.onClkin_iff _).1 hclkin with hr | hr <;> simp [hr] at hs

/-- So many edges more than one as the count lacks of PRESCALE make one tick (R27). -/
theorem clkinEdge_iterate (k : Nat) : ∀ s : State, s.time.onClkin = true →
    s.time.prescaleCount.toNat + k = s.time.prescale.toNat → State.clkinEdge^[k + 1] s = s.prescalerFull := by
  induction k with
  | zero => exact fun s hs hk => State.clkinEdge_of_le hs (by omega)
  | succ k ih =>
    intro s hs hk
    have hcount : (s.time.prescaleCount + 1).toNat = s.time.prescaleCount.toNat + 1 := by
      have := s.time.prescale.isLt
      exact BitVec.toNat_add_of_lt (by simp; omega)
    have hnext := ih { s with time := { s.time with prescaleCount := s.time.prescaleCount + 1 } } hs (by
      show (s.time.prescaleCount + 1).toNat + k = s.time.prescale.toNat
      omega)
    rw [Function.iterate_succ_apply, State.clkinEdge_of_lt hs (by omega), hnext]
    exact State.prescalerFull_of_counted hs _

/-- Settles O26, by induction on the edges that the count still lacks. -/
theorem divisorEdgesMakeOneTick : Obligations.DivisorEdgesMakeOneTick := by
  intro s hs hc
  obtain ⟨k, hk⟩ := Nat.exists_eq_add_of_le hc
  have hedges : s.time.prescale.toNat + 1 - s.time.prescaleCount.toNat = k + 1 := by omega
  rw [hedges]
  exact clkinEdge_iterate k s hs hk.symm

/-! ### The read of NOW_0 -/

/-- NOW is its upper two bytes and its lowest byte (R39). -/
theorem append_snapshot_byteAt (now : Tick) : now.extractLsb' 8 16 ++ byteAt now 0 = now := by
  unfold byteAt
  rw [BitVec.extractLsb'_append_extractLsb'_eq_extractLsb' (by rfl)]
  exact BitVec.extractLsb'_eq_self

/-- Settles O51: the byte driven and the snapshot are NOW, read in one event. -/
theorem now0ReadTakesSnapshot : Obligations.Now0ReadTakesSnapshot := by
  intro s h
  refine ⟨s.now0Read, congrArg Host.Outcome.next (State.whenOn_of_on h _), rfl, ?_, ?_, ?_⟩
  · have hnow := congrArg BitVec.toNat (append_snapshot_byteAt s.time.now)
    rw [BitVec.toNat_append, ← Nat.shiftLeft_add_eq_or_of_lt (BitVec.isLt _), Nat.shiftLeft_eq] at hnow
    show (byteAt s.time.now 0).toNat + 256 * (s.time.now.extractLsb' 8 16).toNat = s.time.now.toNat
    omega
  · exact if_neg (by simp [State.now0Read, h])
  · refine ⟨byteAt s.now0Read.port.nowSnap 0, byteAt s.now0Read.port.nowSnap 1, ?_, ?_, ?_⟩
    · exact if_neg (by simp [State.now0Read, h])
    · exact if_neg (by simp [State.now0Read, h])
    · rw [append_byteAt16]
      exact append_snapshot_byteAt s.time.now

end

end Sys2Proof.Machine
end

section
/-! The due list by itself: where an entry is inserted (R44), and its order as NOW advances (R43, R45). -/

namespace Sys2Proof.Machine

/-- Settles O28, by induction on the list: the entry passes the heads that are not later, and stops at the first later one. -/
theorem insertionPlace : Obligations.InsertionPlace := by
  intro now e l
  induction l with
  | nil => exact fun _ => ⟨List.pairwise_singleton .., [], [], rfl, rfl, nofun, nofun⟩
  | cons x xs ih =>
    intro h
    obtain ⟨hx, hxs⟩ := List.pairwise_cons.1 h
    unfold dueInsert
    split
    next hle =>
      obtain ⟨hordered, before, after, rfl, hins, hbefore, hafter⟩ := ih hxs
      refine ⟨List.pairwise_cons.2 ⟨fun y hy => ?_, hordered⟩, x :: before, after, rfl, by rw [hins]; rfl,
        List.forall_mem_cons.2 ⟨hle, hbefore⟩, hafter⟩
      rcases mem_dueInsert.1 hy with rfl | hy
      · exact hle
      · exact hx y hy
    next hlt =>
      have hafter : ∀ y ∈ x :: xs, earliness now e.due < earliness now y.due :=
        List.forall_mem_cons.2 ⟨not_le.1 hlt, fun y hy => (not_le.1 hlt).trans_le (hx y hy)⟩
      exact ⟨List.pairwise_cons.2 ⟨fun y hy => (hafter y hy).le, h⟩, [], x :: xs, rfl, rfl, nofun, hafter⟩

/-- An insertion keeps the order (R44). -/
theorem Ordered.insert {now : Tick} {l : List Entry} (h : Ordered now l) (e : Entry) : Ordered now (dueInsert now e l) :=
  (insertionPlace now e l h).1

/-! ### Distances as NOW advances -/

/-- The way round the circle and back is the whole circle, or nothing (R25). -/
theorem distance_add_distance (a b : Tick) :
    distance a b + distance b a = 16777216 ∨ distance a b = 0 ∧ distance b a = 0 := by
  have := a.isLt
  have := b.isLt
  rw [distance_eq, distance_eq]
  omega

/-- The distance to an advanced NOW (R24). -/
theorem distance_add (d now size : Tick) : distance d (now + size) = (distance d now + size.toNat) % 16777216 := by
  unfold distance
  rw [show now + size - d = now - d + size by ring, BitVec.toNat_add]

/-- A time that is reached, and at which the reached test does not turn back, stays reached (R25, R45). -/
theorem distance_add_of_lt {d now size : Tick} (h : distance d now + size.toNat < 8388608) :
    distance d (now + size) = distance d now + size.toNat := by
  rw [distance_add]
  omega

/-- On the line that the order reads off the circle, an advance moves every time by its size towards NOW (R43). -/
theorem earliness_add {d now size : Tick} (hsize : size.toNat < 8388608)
    (h : distance d now < 8388608 → distance d now + size.toNat < 8388608) :
    earliness (now + size) d = earliness now d - size.toNat := by
  have hback := distance_add_distance d now
  have hback' := distance_add_distance d (now + size)
  have hadd := distance_add d now size
  unfold earliness
  simp only [reached_iff]
  by_cases hr : distance d now < 8388608
  · have := h hr
    rw [if_pos hr, if_pos (by omega)]
    omega
  · rw [if_neg hr]
    split <;> omega

/-- Settles O29: an advance moves all entries of the list alike. -/
theorem orderOutlivesAdvance : Obligations.OrderOutlivesAdvance := by
  intro now size l hl hsize hreached
  refine List.Pairwise.imp_of_mem (fun ha hb hab => ?_) hl
  have hmove : ∀ e ∈ l, earliness (now + size) e.due = earliness now e.due - size.toNat :=
    fun e he => earliness_add hsize fun hr => hreached e he ((reached_iff _ _).2 hr)
  rw [hmove _ ha, hmove _ hb]
  omega

end Sys2Proof.Machine
end

section
/-! START_EXPIRY and END_EXPIRY as the rules write them out (spec/03). -/

namespace Sys2Proof.Machine

/-! ### The hand-over (R46, R47) -/

section
variable {s : State} {p : Purpose} {i : SlotId} {due : Tick} {rest : List Entry}

/-- What an examination finds at the head of the list (R46). -/
theorem State.dueHead_of_headReached (h : HeadReached s i due p rest) : s.dueHead = some ⟨i, due, p⟩ := by
  obtain ⟨-, hrunning, hdue, hreached⟩ := h
  simp [State.dueHead, hrunning, hdue, hreached]

/-- The head leaves the list, and its event is taken (R47). -/
theorem State.expire_of_headReached (h : HeadReached s i due p rest) (event : State → SlotId → Tick → State) :
    s.expire p event = event { s with due := rest } i due := by
  have hhead := State.dueHead_of_headReached h
  obtain ⟨-, -, hdue, -⟩ := h
  simp [State.expire, hhead, hdue]

theorem exec_startExpiry_of_headReached (h : HeadReached s i due .start rest) :
    exec .startExpiry s = .next (State.startExpiry { s with due := rest } i due) := by
  exact congrArg Host.Outcome.next ((State.whenOn_of_on h.1 _).trans (State.expire_of_headReached h _))

theorem exec_endExpiry_of_headReached (h : HeadReached s i due .stop rest) :
    exec .endExpiry s = .next (State.endExpiry { s with due := rest } i due) := by
  exact congrArg Host.Outcome.next ((State.whenOn_of_on h.1 _).trans (State.expire_of_headReached h _))

/-- Where no examination would hand over an entry, an expiry changes nothing (R46; log entry 1). -/
theorem State.expire_of_no_head (h : s.dueHead = none) (event : State → SlotId → Tick → State) : s.expire p event = s := by
  simp [State.expire, h]

theorem State.whenOn_of_eq {event : State → State} (h : event s = s) : s.whenOn event = s := by
  unfold State.whenOn
  split
  · rfl
  · exact h

/-- Nothing is handed over in STOPPED, from an empty list, or before the head's time (R37, R46). -/
theorem State.dueHead_eq_none
    (h : s.time.state = .stopped ∨ s.due = [] ∨ ∃ e rest, s.due = e :: rest ∧ reached e.due s.time.now = false) :
    s.dueHead = none := by
  rcases h with hs | hd | ⟨e, rest, hd, hr⟩
  · simp [State.dueHead, hs]
  · simp [State.dueHead, hd]
  · simp [State.dueHead, hd, hr]

end

/-- Settles O33: no examination hands over an entry there. -/
theorem noExpiryBeforeItsTime : Obligations.NoExpiryBeforeItsTime := by
  intro s h
  have hnone := State.dueHead_eq_none h
  exact ⟨congrArg Host.Outcome.next (State.whenOn_of_eq (State.expire_of_no_head hnone _)),
    congrArg Host.Outcome.next (State.whenOn_of_eq (State.expire_of_no_head hnone _))⟩

/-! ### START_EXPIRY (R50 to R55) -/

section
variable (s : State) (i : SlotId)

@[simp] theorem woken_slot (j : SlotId) : (woken s).slot j = s.slot j := State.slot_congr (woken_slots s) j
@[simp] theorem woken_out (n : OutId) : (woken s).out n = s.out n := State.out_congr (woken_outs s) n

/-- The state in which a START expiry's occurrence is taken: the scheduled start recorded, and the wake requested (R50). -/
def expiryBegun (due : Tick) : State :=
  let u := s.setSlot i { s.slot i with schedStart := due }
  if (s.slot i).prog.wake then woken u else u

theorem State.startExpiry_eq (due : Tick) :
    s.startExpiry i due = (expiryBegun s i due).occurrence i (lateness due s.time.now) := by
  unfold State.startExpiry expiryBegun
  simp only [State.wakeRequest_eq]

@[simp] theorem expiryBegun_slot (due : Tick) : (expiryBegun s i due).slot i = { s.slot i with schedStart := due } := by
  unfold expiryBegun; dsimp only; split <;> simp

@[simp] theorem expiryBegun_out (due : Tick) (n : OutId) : (expiryBegun s i due).out n = s.out n := by
  unfold expiryBegun; dsimp only; split <;> simp

@[simp] theorem expiryBegun_due (due : Tick) : (expiryBegun s i due).due = s.due := by
  unfold expiryBegun; dsimp only; split <;> simp

@[simp] theorem expiryBegun_now (due : Tick) : (expiryBegun s i due).time.now = s.time.now := by
  unfold expiryBegun; dsimp only; split <;> simp

variable {s i}

theorem State.occurrence_of_notify (hk : (s.slot i).prog.kind = .notify) (late : Half) :
    s.occurrence i late = occurrenceOver s i .occur late := by
  simp [State.occurrence, hk, State.endOccurrence_eq]

theorem State.occurrence_of_level (hk : (s.slot i).prog.kind = .level) (late : Half) :
    s.occurrence i late = occurrenceOver
      (s.setOut (s.slot i).prog.line ((s.out (s.slot i).prog.line).changeRest (s.slot i).prog.value)) i .occur late := by
  simp [State.occurrence, hk, State.endOccurrence_eq]

theorem State.occurrence_of_pulse (hk : (s.slot i).prog.kind = .pulse) (late : Half) :
    s.occurrence i late = s.pulseStart i late := by
  simp [State.occurrence, hk]

/-- A PULSE occurrence at a lateness of WIDTH or more is missed (R53). -/
theorem State.pulseStart_of_late {late : Half} (hw : (s.slot i).prog.width.toNat ≤ late.toNat) :
    s.pulseStart i late = occurrenceOver s i .missed late := by
  simp [State.pulseStart, hw, State.endOccurrence_eq]

/-- A PULSE occurrence at a stack of 4 claims is refused (R54, R86). -/
theorem State.pulseStart_of_full {late : Half} (hw : late.toNat < (s.slot i).prog.width.toNat)
    (hfull : 4 ≤ (s.out (s.slot i).prog.line).claims.length) :
    s.pulseStart i late = occurrenceOver s i .claimRefused late := by
  have hf : (s.out (s.slot i).prog.line).full = true := decide_eq_true hfull
  simp [State.pulseStart, hw.not_ge, hf, State.endOccurrence_eq]

/-- A PULSE occurrence with room drives (R55, R85). -/
theorem State.pulseStart_of_room {late : Half} (hw : late.toNat < (s.slot i).prog.width.toNat)
    (hroom : (s.out (s.slot i).prog.line).claims.length < 4) :
    s.pulseStart i late =
      { (s.setOut (s.slot i).prog.line { s.out (s.slot i).prog.line with
            claims := ⟨i, (s.slot i).prog.value = .high⟩ :: (s.out (s.slot i).prog.line).claims }).setSlot i
          { s.slot i with state := .driving } with
        due := dueInsert s.time.now ⟨i, (s.slot i).schedStart + (s.slot i).prog.width.setWidth 24, .stop⟩ s.due } := by
  have hf : (s.out (s.slot i).prog.line).full = false := decide_eq_false hroom.not_ge
  unfold State.pulseStart
  simp only [hw.not_ge, hf, if_false, Bool.false_eq_true, beq_eq_decide]
  rfl

end

/-- Settles O30, by KIND and VALUE. -/
theorem startExpiryOfNotifyAndLevel : Obligations.StartExpiryOfNotifyAndLevel := by
  intro s i due rest h p l u v late
  have hv : expiryBegun { s with due := rest } i due = v := rfl
  have hslot : v.slot i = { s.slot i with schedStart := due } := hv ▸ expiryBegun_slot ..
  have hout : v.out p.line = l := hv ▸ expiryBegun_out ..
  have hexec : exec .startExpiry s = .next (v.occurrence i late) := by
    rw [exec_startExpiry_of_headReached h, State.startExpiry_eq, hv]
  have hlevel : p.kind = .level → exec .startExpiry s =
      .next (occurrenceOver (v.setOut p.line (l.changeRest p.value)) i .occur late) := by
    intro hk
    rw [hexec, State.occurrence_of_level (by rw [hslot]; exact hk), hslot, hout]
  refine ⟨fun hk => ?_, fun hk hvalue => ?_, fun hk hvalue => ?_, fun hk hvalue => ?_⟩
  · rw [hexec, State.occurrence_of_notify (by rw [hslot]; exact hk)]
  all_goals
    rw [hlevel hk, hvalue]
    rfl

/-- Settles O31, by the lateness and the claims of the line. -/
theorem startExpiryOfPulse : Obligations.StartExpiryOfPulse := by
  intro s i due rest h hk _ p l u v late
  have hv : expiryBegun { s with due := rest } i due = v := rfl
  have hslot : v.slot i = { s.slot i with schedStart := due } := hv ▸ expiryBegun_slot ..
  have hout : v.out p.line = l := hv ▸ expiryBegun_out ..
  have hexec : exec .startExpiry s = .next (v.pulseStart i late) := by
    rw [exec_startExpiry_of_headReached h, State.startExpiry_eq, hv, State.occurrence_of_pulse (by rw [hslot]; exact hk)]
  rw [hexec]
  refine ⟨fun hlate => ?_, fun hw hfull => ?_, fun hw hroom => ?_⟩
  · rw [State.pulseStart_of_late (by rw [hslot]; exact hlate)]
  · rw [State.pulseStart_of_full (by rw [hslot]; exact hw) (by rw [hslot, hout]; exact hfull)]
  · rw [State.pulseStart_of_room (by rw [hslot]; exact hw) (by rw [hslot, hout]; exact hroom), hslot, hout,
      show v.time.now = s.time.now from hv ▸ expiryBegun_now .., show v.due = rest from hv ▸ expiryBegun_due ..]

/-! ### END_EXPIRY (R56) -/

/-- Settles O32: the claim's removal is the one of R87, and the rest is the end of the occurrence. -/
theorem endExpiryEndsPulse : Obligations.EndExpiryEndsPulse := by
  intro s i due rest h n u
  rw [exec_endExpiry_of_headReached h, State.endExpiry, State.endOccurrence_eq]
  rfl

end Sys2Proof.Machine
end

section
/-! What the events of the part do to the times that it keeps: the due list, the deadlines, the T0 of a walk and the held advances (spec/02,
spec/03, spec/06, spec/08). -/

namespace Sys2Proof.Machine

/-- The first START entry of a run of its slot with this launch time (R65, R70). -/
def RunEntry (s : State) (time : Tick) (e : Entry) : Prop :=
  e.purpose = .start ∧ ∃ chain, e.due = firstDue (s.slot e.slot).prog.delay time chain

/-- NOW and each slot's fields and scheduled start stay. The due list stays in order, and what it gains is among the new entries; a deadline
that is set lies within 255 ticks, a walk that is begun has T0 at NOW, and no advance is held back. -/
structure KeepsTimes (new : Entry → Prop) (s t : State) : Prop where
  now : t.time.now = s.time.now
  prog : ∀ i : SlotId, (t.slot i).prog = (s.slot i).prog
  start : ∀ i : SlotId, (t.slot i).schedStart = (s.slot i).schedStart
  ordered : Ordered s.time.now s.due → Ordered t.time.now t.due
  entry : ∀ e ∈ t.due, e ∈ s.due ∨ new e
  deadline : ∀ n : InId, ∀ d ∈ (t.inp n).deadline, d ∈ (s.inp n).deadline ∨ Within 255 s.time.now d
  walk : t.cmd.busy = true → t.cmd.walkCommand = .launchGroup →
    (s.cmd.busy = true ∧ s.cmd.walkCommand = .launchGroup ∧ t.cmd.t0 = s.cmd.t0) ∨ t.cmd.t0 = s.time.now
  held : ∀ size ∈ t.time.heldAdvances, size ∈ s.time.heldAdvances

/-- Every new entry is that of a run launched at NOW. -/
abbrev Runs (s t : State) : Prop := KeepsTimes (RunEntry s s.time.now) s t

section
variable {new new' : Entry → Prop} {s t u : State}

theorem KeepsTimes.refl (new : Entry → Prop) (s : State) : KeepsTimes new s s :=
  ⟨rfl, fun _ => rfl, fun _ => rfl, id, fun _ => .inl, fun _ _ => .inl, fun hb hw => .inl ⟨hb, hw, rfl⟩, fun _ => id⟩

theorem KeepsTimes.trans (h₁ : KeepsTimes new s t) (h₂ : KeepsTimes new t u) : KeepsTimes new s u where
  now := h₂.now.trans h₁.now
  prog i := (h₂.prog i).trans (h₁.prog i)
  start i := (h₂.start i).trans (h₁.start i)
  ordered := h₂.ordered ∘ h₁.ordered
  entry e he := (h₂.entry e he).elim (h₁.entry e) .inr
  deadline n d hd := (h₂.deadline n d hd).elim (h₁.deadline n d) fun hw => .inr (h₁.now ▸ hw)
  walk hb hw := by
    rcases h₂.walk hb hw with ⟨hb', hw', ht⟩ | ht
    · rw [ht]; exact h₁.walk hb' hw'
    · exact .inr (ht.trans h₁.now)
  held size hs := h₁.held size (h₂.held size hs)

theorem KeepsTimes.mono (h : KeepsTimes new s t) (hn : ∀ e, new e → new' e) : KeepsTimes new' s t :=
  { h with entry := fun e he => (h.entry e he).imp_right (hn e) }

/-- An event that is taken or not. -/
theorem KeepsTimes.ite (p : Prop) [Decidable p] (h : KeepsTimes new s t) : KeepsTimes new s (if p then t else s) := by
  split
  · exact h
  · exact .refl new s

/-- The entry of a run is the same before and after such a change. -/
theorem KeepsTimes.runEntry (h : KeepsTimes new s t) {time : Tick} {e : Entry} (he : RunEntry t time e) : RunEntry s time e := by
  unfold RunEntry at he ⊢
  rw [← h.prog]
  exact he

/-- Runs that begin at the same NOW one after another. -/
theorem Runs.trans (h₁ : Runs s t) (h₂ : Runs t u) : Runs s u :=
  KeepsTimes.trans h₁ (h₂.mono fun _ he => h₁.now ▸ h₁.runEntry he)

/-! ### Changes of one part of the state -/

/-- A change outside the slots, the due list and the walk items. -/
theorem KeepsTimes.of_eq (hslots : t.slots = s.slots) (hdue : t.due = s.due) (hnow : t.time.now = s.time.now)
    (hheld : ∀ size ∈ t.time.heldAdvances, size ∈ s.time.heldAdvances) (hins : t.ins = s.ins) (hcmd : t.cmd = s.cmd) :
    KeepsTimes new s t where
  now := hnow
  prog i := by rw [State.slot_congr hslots]
  start i := by rw [State.slot_congr hslots]
  ordered h := by rw [hdue, hnow]; exact h
  entry e he := .inl (hdue ▸ he)
  deadline n d hd := .inl (by rwa [State.inp_congr hins] at hd)
  walk hb hw := by
    rw [hcmd] at hb hw ⊢
    exact .inl ⟨hb, hw, rfl⟩
  held := hheld

/-- A change outside the times. -/
theorem KeepsTimes.of_other_items (hslots : t.slots = s.slots) (hdue : t.due = s.due) (htime : t.time = s.time) (hins : t.ins = s.ins)
    (hcmd : t.cmd = s.cmd) : KeepsTimes new s t :=
  .of_eq hslots hdue (by rw [htime]) (by rw [htime]; exact fun _ => id) hins hcmd

/-- One slot written, its programmed fields and its scheduled start kept. -/
theorem KeepsTimes.setSlot (h : KeepsTimes new s t) {i : SlotId} {x : Slot} (hp : x.prog = (t.slot i).prog)
    (hs : x.schedStart = (t.slot i).schedStart) : KeepsTimes new s (t.setSlot i x) := by
  refine { h with prog := fun j => ?_, start := fun j => ?_ }
  · rw [← h.prog j, State.slot_setSlot]
    split
    next hj => rw [hj]; exact hp
    next => rfl
  · rw [← h.start j, State.slot_setSlot]
    split
    next hj => rw [hj]; exact hs
    next => rfl

/-- One input line written, its deadline kept, cleared, or set within 255 ticks. -/
theorem KeepsTimes.setInp (h : KeepsTimes new s t) {n : InId} {l : InLine}
    (hd : ∀ d ∈ l.deadline, d ∈ (s.inp n).deadline ∨ Within 255 s.time.now d) : KeepsTimes new s (t.setInp n l) := by
  refine { h with deadline := fun m d hm => ?_ }
  rw [State.inp_setInp] at hm
  split at hm
  next hmn => rw [hmn]; exact hd d hm
  next => exact h.deadline m d hm

/-- The due list written, in order and with no entries but old and new ones. -/
theorem KeepsTimes.setDue {l : List Entry} (ho : Ordered s.time.now s.due → Ordered s.time.now l)
    (he : ∀ e ∈ l, e ∈ s.due ∨ new e) : KeepsTimes new s { s with due := l } :=
  { KeepsTimes.refl new s with ordered := ho, entry := he }

/-- The walk items written: no walk is in progress, or the one that was. -/
theorem KeepsTimes.setCmd (h : KeepsTimes new s t) {c : CommandUnit}
    (hc : c.busy = true → c.walkCommand = .launchGroup →
      (s.cmd.busy = true ∧ s.cmd.walkCommand = .launchGroup ∧ c.t0 = s.cmd.t0) ∨ c.t0 = s.time.now) :
    KeepsTimes new s { t with cmd := c } :=
  { h with walk := hc }

end

/-! ### The due list (R42, R44, R47) -/

section
variable (new : Entry → Prop) (s : State) (i : SlotId) (n : InId)

theorem keepsTimes_removeDue : KeepsTimes new s (s.removeDue i) :=
  .setDue (fun h => h.filter _) fun _ he => .inl (List.mem_filter.1 he).1

theorem keepsTimes_tail : KeepsTimes new s { s with due := s.due.tail } :=
  .setDue (fun h => h.tail) fun _ he => .inl (List.mem_of_mem_tail he)

variable {new} in
theorem keepsTimes_insertDue {due : Tick} {p : Purpose} (h : new ⟨i, due, p⟩) : KeepsTimes new s (s.insertDue i due p) := by
  refine .setDue (fun h => h.insert _) fun e he => ?_
  rcases mem_dueInsert.1 he with rfl | he
  · exact .inr h
  · exact .inl he

/-! ### Launches, settling and finishing -/

theorem keepsTimes_noteExamination : KeepsTimes new s s.noteExamination := .of_eq rfl rfl rfl (fun _ => id) rfl rfl

theorem TimeBase.leaveDoze_heldAdvances (t : TimeBase) : t.leaveDoze.heldAdvances = t.heldAdvances := by
  unfold TimeBase.leaveDoze; split <;> rfl

theorem keepsTimes_wakeRequest : KeepsTimes new s s.wakeRequest :=
  .ite _ (.of_eq rfl rfl (TimeBase.leaveDoze_now _) (fun _ hs => TimeBase.leaveDoze_heldAdvances s.time ▸ hs) rfl rfl)

theorem keepsTimes_giveRecord (r : Record) : KeepsTimes new s (s.giveRecord r) := by
  rw [State.giveRecord_eq]
  exact .of_other_items (recorded_slots s r) (recorded_due s r) (recorded_time s r) (recorded_ins s r) (recorded_cmd s r)

theorem keepsTimes_giveFinal (kind : FinalKind) (late : Half) : KeepsTimes new s (s.giveFinal i kind late).1 := by
  unfold State.giveFinal
  split
  · exact .refl new s
  · split
    · refine .trans ((KeepsTimes.refl new s).setSlot (i := i) (x := { s.slot i with
          state := .retiring, disarmMark := kind == .cancelled, held := some (s.finalRecord i kind late) }) rfl rfl) ?_
      exact .of_other_items rfl rfl rfl rfl rfl
    · exact .of_other_items rfl rfl rfl rfl rfl

theorem keepsTimes_stopRun : KeepsTimes new s (s.stopRun i) := by
  unfold State.stopRun
  split
  · exact (keepsTimes_removeDue new s i).trans (.of_other_items rfl rfl rfl rfl rfl)
  · exact keepsTimes_removeDue new s i

theorem keepsTimes_markPending : KeepsTimes new s (s.markPending i) := (KeepsTimes.refl new s).setSlot rfl rfl

theorem keepsTimes_ignoreLaunch (l : Launch) : KeepsTimes new s (s.ignoreLaunch l) := .ite _ (keepsTimes_giveRecord new s _)

/-- A run inserts its first START entry (R70). -/
theorem keepsTimes_beginRun (time : Tick) (chain : Bool) : KeepsTimes (RunEntry s time) s (s.beginRun i time chain) := by
  refine ((KeepsTimes.refl _ s).setSlot (i := i) (x := { s.slot i with state := .waiting, occurrences := 0, launchTime := time })
    rfl rfl).trans (keepsTimes_insertDue _ i ?_)
  exact ⟨rfl, chain, rfl⟩

theorem keepsTimes_launchRunning (l : Launch) : KeepsTimes (RunEntry s l.time) s (s.launchRunning l).1 := by
  unfold State.launchRunning
  split
  · have hstopped := keepsTimes_stopRun (RunEntry s l.time) s l.target
    exact hstopped.trans ((keepsTimes_beginRun _ l.target l.time _).mono fun _ he => hstopped.runEntry he)
  · split
    · exact keepsTimes_ignoreLaunch _ s l
    · exact keepsTimes_markPending _ s l.target
  all_goals exact keepsTimes_ignoreLaunch _ s l

theorem keepsTimes_launchRetiring (l : Launch) : KeepsTimes new s (s.launchRetiring l).1 := by
  have hignored := keepsTimes_ignoreLaunch new s l
  have hmarked : KeepsTimes new s
      (if (s.slot l.target).pendingMark then (s.ignoreLaunch l, LaunchOutcome.ignored) else (s.markPending l.target, .pending)).1 := by
    split
    · exact hignored
    · exact keepsTimes_markPending new s l.target
  unfold State.launchRetiring
  split
  · exact .refl new s
  · split
    · exact hmarked
    · exact hmarked
    · exact hignored
    · exact hignored

/-- A launch begins a run with its own launch time, or none (R69 to R74). -/
theorem keepsTimes_launch (l : Launch) : KeepsTimes (RunEntry s l.time) s (s.launch l).1 := by
  unfold State.launch
  split
  · exact .refl _ s
  · exact .refl _ s
  · exact keepsTimes_beginRun s l.target l.time _
  · exact keepsTimes_launchRunning s l
  · exact keepsTimes_launchRunning s l
  · exact keepsTimes_launchRetiring _ s l

theorem runs_chainLaunch (target : SlotId) : Runs s (s.chainLaunch i target) := by
  have hl : Runs s (s.launch ⟨target, .chain, slotByte i, s.time.now⟩).1 :=
    keepsTimes_launch s ⟨target, .chain, slotByte i, s.time.now⟩
  unfold State.chainLaunch
  dsimp only
  split
  · exact hl.trans (keepsTimes_giveRecord _ _ _)
  · exact hl

theorem runs_settle : Runs s (s.settle i) := by
  unfold State.settle
  split
  · have hcleared : Runs s (s.setSlot i { s.slot i with pendingMark := false }) := (KeepsTimes.refl _ s).setSlot rfl rfl
    exact hcleared.trans (keepsTimes_beginRun _ i _ _)
  · exact (KeepsTimes.refl _ s).setSlot rfl rfl

theorem runs_finish (late : Half) : Runs s (s.finish i late) := by
  have hfinal : Runs s (s.giveFinal i .done late).1 := keepsTimes_giveFinal _ s i .done late
  have hended : Runs s
      (if (s.giveFinal i .done late).2 then (s.giveFinal i .done late).1.settle i else (s.giveFinal i .done late).1) :=
    hfinal.trans (KeepsTimes.ite _ (runs_settle _ i))
  unfold State.finish
  dsimp only
  split
  · exact hended.trans (runs_chainLaunch _ i _)
  · exact hended

theorem runs_retireCompletion : Runs s (s.retireCompletion i) := by
  unfold State.retireCompletion
  split
  · exact (KeepsTimes.refl _ s).setSlot rfl rfl
  · have hnoted : KeepsTimes (RunEntry s s.time.now) s (if (s.slot i).pendingMark then s.noteExamination else s) :=
      .ite _ (keepsTimes_noteExamination _ s)
    have hslot : (if (s.slot i).pendingMark then s.noteExamination else s).slot i = s.slot i := by split <;> rfl
    have hfreed : Runs s ((if (s.slot i).pendingMark then s.noteExamination else s).setSlot i { s.slot i with held := none }) :=
      hnoted.setSlot (by rw [hslot]) (by rw [hslot])
    exact hfreed.trans (runs_settle _ i)

theorem runs_releaseRetiring : Runs s (s.releaseRetiring i) := by
  refine .trans ?_ (runs_retireCompletion _ i)
  exact .of_other_items rfl rfl rfl rfl rfl

theorem runs_releaseInOrder (l : List SlotId) : ∀ s : State, Runs s (s.releaseInOrder l) := by
  induction l with
  | nil => exact fun s => .refl _ s
  | cons i rest ih =>
    intro s
    unfold State.releaseInOrder
    split
    · exact .refl _ s
    · exact (runs_releaseRetiring s i).trans (ih _)

theorem runs_flushReports : Runs s s.flushReports.state :=
  have hempty : Runs s s.emptyQueue := .of_other_items rfl rfl rfl rfl rfl
  hempty.trans (runs_releaseInOrder _ _)

theorem runs_popReport : Runs s s.popReport := by
  unfold State.popReport
  split
  · exact .refl _ s
  next r rest _ =>
    have hpopped : Runs s { s with report.queue := rest } := .of_other_items rfl rfl rfl rfl rfl
    dsimp only
    split
    · exact hpopped
    · exact hpopped.trans (runs_releaseRetiring _ _)

/-! ### The input unit (R100 to R107) -/

theorem keepsTimes_closeDelivery : KeepsTimes new s (s.closeDelivery n) := by
  unfold State.closeDelivery
  split
  · exact .refl new s
  next d _ =>
    have hrecord : KeepsTimes new s (if d.owed then s.giveRecord (d.record n s.time.now) else s) :=
      .ite _ (keepsTimes_giveRecord new s _)
    exact hrecord.setInp fun d hd => hrecord.deadline n d hd

theorem keepsTimes_qualifiedChange : KeepsTimes new s (s.qualifiedChange n) := by
  have hwake : KeepsTimes new s (if (s.inp n).wakeEnable then s.wakeRequest else s) := .ite _ (keepsTimes_wakeRequest new s)
  have hedge : KeepsTimes new s (s.takeEdge n) := hwake.setInp fun _ hd => .inl hd
  unfold State.qualifiedChange
  refine .ite _ ?_
  dsimp only
  split
  · exact hedge.trans (keepsTimes_closeDelivery new _ n)
  · exact hedge

/-- A qualification begins FILTER ticks ahead of its deadline (R102). -/
theorem within_filter (now : Tick) (filter : Byte) : Within 255 now (now + filter.setWidth 24) := by
  have := filter.isLt
  refine .inr ?_
  rw [distance, show now + filter.setWidth 24 - now = filter.setWidth 24 by ring, BitVec.toNat_setWidth]
  omega

theorem keepsTimes_takeRawChange : KeepsTimes new s (s.takeRawChange n) := by
  unfold State.takeRawChange
  dsimp only
  split
  · exact (KeepsTimes.refl new s).setInp nofun
  · split
    · exact (KeepsTimes.refl new s).setInp nofun
    · split
      · have hset : KeepsTimes new s (s.setInp n { s.inp n with raw := s.pin n, qualified := s.pin n }) :=
          (KeepsTimes.refl new s).setInp fun _ hd => .inl hd
        exact hset.trans (keepsTimes_qualifiedChange new _ n)
      · refine (KeepsTimes.refl new s).setInp fun d hd => .inr ?_
        exact Option.some.inj hd ▸ within_filter _ _

theorem keepsTimes_comparePin : KeepsTimes new s (s.comparePin n) := .ite _ (keepsTimes_takeRawChange new s n)

theorem keepsTimes_completeIfEmpty : KeepsTimes new s (s.completeIfEmpty n) :=
  .ite _ ((keepsTimes_closeDelivery new s n).trans (keepsTimes_comparePin new _ n))

theorem keepsTimes_completeQualification : KeepsTimes new s (s.completeQualification n) := by
  have hset : KeepsTimes new s (s.setInp n { s.inp n with qualified := (s.inp n).raw, deadline := none }) :=
    (KeepsTimes.refl new s).setInp nofun
  exact .ite _ ((hset.trans (keepsTimes_qualifiedChange new _ n)).trans (keepsTimes_comparePin new _ n))

variable {new s} in
theorem KeepsTimes.whenOn {event : State → State} (h : KeepsTimes new s (event s)) : KeepsTimes new s (s.whenOn event) := by
  unfold State.whenOn
  split
  · exact .refl new s
  · exact h

theorem keepsTimes_pinChange (level : Bool) : KeepsTimes new s (s.pinChange n level) :=
  have hpin : KeepsTimes new s (s.setPin n level) := .of_other_items rfl rfl rfl rfl rfl
  hpin.trans (keepsTimes_comparePin new _ n).whenOn

theorem runs_deliverNext : Runs s (s.deliverNext n) := by
  unfold State.deliverNext
  split
  · exact .refl _ s
  next d _ =>
    split
    · exact keepsTimes_completeIfEmpty _ s n
    next i rest _ =>
      have hleft : Runs s
          (s.setInp n { s.inp n with delivery := some { d with slots := rest, delivered := d.delivered + 1 } }) :=
        (KeepsTimes.refl _ s).setInp fun _ hd => .inl hd
      have hnoted := hleft.trans (keepsTimes_noteExamination _ _)
      exact (hnoted.trans (keepsTimes_launch _ ⟨i, .input, BitVec.ofNat 8 n.val, s.time.now⟩)).trans
        (keepsTimes_completeIfEmpty _ _ n)

theorem keepsTimes_joinBinding : KeepsTimes new s (s.joinBinding i) := (KeepsTimes.refl new s).setInp fun _ hd => .inl hd

theorem keepsTimes_unbind : KeepsTimes new s (s.unbind i) := by
  refine .ite _ (KeepsTimes.trans ?_ (keepsTimes_completeIfEmpty new _ _))
  exact (KeepsTimes.refl new s).setInp fun _ hd => .inl hd

/-! ### Slot commands (R13, R17 to R19, R67) -/

theorem keepsTimes_cancelActive : KeepsTimes new s (s.cancelActive i) := by
  have hstopped : KeepsTimes new s (if (s.slot i).state == .bound then s else s.stopRun i) := by
    split
    · exact .refl new s
    · exact keepsTimes_stopRun new s i
  unfold State.cancelActive
  dsimp only
  generalize (if (s.slot i).state == .bound then s else s.stopRun i) = u at hstopped ⊢
  have hunmarked : KeepsTimes new s (u.setSlot i { u.slot i with pendingMark := false }) := hstopped.setSlot rfl rfl
  refine ((hunmarked.trans (keepsTimes_unbind new _ i)).trans (keepsTimes_giveFinal new _ i .cancelled 0)).trans (.ite _ ?_)
  exact (KeepsTimes.refl new _).setSlot rfl rfl

theorem keepsTimes_cancelRetiring : KeepsTimes new s (s.cancelRetiring i) := by
  have hmarked : KeepsTimes new s (s.setSlot i { s.slot i with pendingMark := false, disarmMark := true }) :=
    (KeepsTimes.refl new s).setSlot rfl rfl
  unfold State.cancelRetiring
  dsimp only
  split
  · exact hmarked
  · exact hmarked.trans (keepsTimes_unbind new _ i)

variable {s i} in
theorem keepsTimes_cancel {t : State} (ht : s.cancel i = some t) : KeepsTimes new s t := by
  unfold State.cancel at ht
  split at ht
  next => cases ht
  next => cases ht
  next => exact Option.some.inj ht ▸ keepsTimes_cancelActive new s i
  next => exact Option.some.inj ht ▸ keepsTimes_cancelActive new s i
  next => exact Option.some.inj ht ▸ keepsTimes_cancelActive new s i
  next => exact Option.some.inj ht ▸ keepsTimes_cancelRetiring new s i

theorem keepsTimes_cancelSlot : KeepsTimes new s (s.cancelSlot i).state := by
  unfold State.cancelSlot
  split
  next ht => exact keepsTimes_cancel new ht
  · exact .refl new s

theorem keepsTimes_allocSlot : KeepsTimes new s s.allocSlot.state := by
  unfold State.allocSlot
  split
  · exact (KeepsTimes.refl new s).setSlot rfl rfl
  · exact .refl new s

theorem runs_enterArmed : Runs s (s.enterArmed i) := by
  have hbound : Runs s (s.setSlot i { s.slot i with state := .bound, occurrences := 0 }) := (KeepsTimes.refl _ s).setSlot rfl rfl
  unfold State.enterArmed
  split
  · have hnoted : Runs s s.noteExamination := keepsTimes_noteExamination _ s
    exact hnoted.trans (keepsTimes_beginRun _ i _ _)
  · exact hbound.trans (keepsTimes_joinBinding _ _ i)
  · exact hbound
  · exact hbound

theorem runs_armSlot : Runs s (s.armSlot i).state := by
  unfold State.armSlot
  split
  · split
    · exact .refl _ s
    · exact runs_enterArmed s i
  · exact .refl _ s

theorem runs_launchSlot : Runs s (s.launchSlot i).state :=
  have hnoted : Runs s s.noteExamination := keepsTimes_noteExamination _ s
  hnoted.trans (keepsTimes_launch _ ⟨i, .command, 0, s.time.now⟩)

/-! ### The time base (R30 to R35) -/

theorem keepsTimes_startTime : KeepsTimes new s s.startTime.state := by
  unfold State.startTime
  dsimp only
  split
  · exact .of_eq rfl rfl rfl (fun _ => id) rfl rfl
  · exact .refl new s

/-- STOP discards the held advances (R175). -/
theorem keepsTimes_stopTime : KeepsTimes new s s.stopTime.state := by
  unfold State.stopTime
  split
  · exact .refl new s
  · exact .of_eq rfl rfl rfl nofun rfl rfl

theorem keepsTimes_dozeTime : KeepsTimes new s s.dozeTime.state := by
  unfold State.dozeTime
  split
  · split
    · exact .of_eq rfl rfl rfl (fun _ => id) rfl rfl
    · exact .refl new s
  · exact .refl new s

theorem keepsTimes_wakeTime : KeepsTimes new s s.wakeTime.state := by
  unfold State.wakeTime
  split
  · exact .of_eq rfl rfl (TimeBase.leaveDoze_now _) (fun _ hs => TimeBase.leaveDoze_heldAdvances s.time ▸ hs) rfl rfl
  · exact .refl new s

theorem keepsTimes_takeReady : KeepsTimes new s s.takeReady := by
  unfold State.takeReady
  exact .ite _ (.of_eq rfl rfl rfl (fun _ => id) rfl rfl)

end

end Sys2Proof.Machine
end

section
/-! Every command but an advance keeps the due list in order and the times within their bounds (spec/03, R43, R45, R103). -/

namespace Sys2Proof.Machine

/-- What the bounds ask of one entry of the due list (R45, R55). -/
abbrev Timely (s : State) (e : Entry) : Prop :=
  Within 4194303 s.time.now e.due ∧
    (e.purpose = .stop → (s.slot e.slot).prog.kind = .pulse ∧
      e.due = (s.slot e.slot).schedStart + (s.slot e.slot).prog.width.setWidth 24)

section
variable {s : State}

theorem HorizonLaw.timely (h : HorizonLaw s) {e : Entry} (he : e ∈ s.due) : Timely s e := h.1 e he

theorem HorizonLaw.reached_t0 (h : HorizonLaw s) (hbusy : s.cmd.busy = true) (hwalk : s.cmd.walkCommand = .launchGroup) :
    distance s.cmd.t0 s.time.now < 8388608 := by
  obtain ⟨-, -, ht0, -⟩ := h
  exact ht0 hbusy hwalk

theorem HorizonLaw.held_le (h : HorizonLaw s) : ∀ size ∈ s.time.heldAdvances, size.toNat ≤ 4096 := by
  obtain ⟨-, -, -, hheld⟩ := h
  exact hheld

/-- The state of an entry's slot (R41). -/
theorem Consistent.state_of_mem_due (h : Consistent s) {e : Entry} (he : e ∈ s.due) :
    (s.slot e.slot).state = if e.purpose = .start then .waiting else .driving := by
  obtain ⟨-, hstate, -⟩ := h.due
  exact hstate e he

/-- The slot of an entry holds fields that ARM accepts (R16, R41). -/
theorem Consistent.passesArm_of_mem_due (h : Consistent s) {e : Entry} (he : e ∈ s.due) : PassesArm (s.slot e.slot).prog := by
  have hstate := h.state_of_mem_due he
  refine ((h.slots e.slot).inRun ?_).passes
  split at hstate
  · exact .inl hstate
  · exact .inr hstate

/-- A slot has one entry (R41). -/
theorem Consistent.ne_head (h : Consistent s) {e : Entry} {rest : List Entry} (hdue : s.due = e :: rest) :
    ∀ e' ∈ rest, e'.slot ≠ e.slot := by
  obtain ⟨hnodup, -, -⟩ := h.due
  rw [hdue, List.map_cons, List.nodup_cons] at hnodup
  intro e' he' hslot
  exact hnodup.1 (hslot ▸ List.mem_map_of_mem he')

end

/-! ### Times ahead of a reached one -/

/-- So many ticks after a reached time lies a time that is reached or no more ticks ahead (R25). -/
theorem within_add {bound : Nat} {now d k : Tick} (hd : distance d now < 8388608) (hk : k.toNat ≤ bound) :
    Within bound now (d + k) := by
  have := d.isLt
  have := now.isLt
  have := k.isLt
  rw [distance_eq] at hd
  unfold Within
  rw [distance_eq, distance_eq, BitVec.toNat_add]
  omega

@[simp] theorem distance_self (d : Tick) : distance d d = 0 := by simp [distance]

/-- The bounds that ARM sets to the times of a slot (R16). -/
theorem PassesArm.limits {p : Program} (h : PassesArm p) :
    p.delay.toNat ≤ 4194303 ∧ p.period.toNat ≤ 4194303 ∧
      (p.kind = .pulse → p.period ≠ 0 → p.width.toNat < p.period.toNat) := by
  have hrow := List.any_eq_false.1 h
  refine ⟨?_, ?_, fun hk hp => ?_⟩
  · simpa using hrow (decide (4194303 < p.delay.toNat), 4) (by simp [armChecks])
  · simpa using hrow (decide (4194303 < p.period.toNat), 9) (by simp [armChecks])
  · have hpulse : p.period ≠ 0 → p.width.toNat < p.period.toNat := by
      simpa [hk] using hrow (p.kind == .pulse && p.period != 0 && !decide (p.width.toNat < p.period.toNat), 9)
        (by simp [armChecks])
    exact hpulse hp

section
variable {new : Entry → Prop} {s t : State} {i : SlotId}

/-- A run launched at a reached time starts at most 4,194,303 ticks ahead (R45, R65). -/
theorem timely_of_runEntry (ht : Consistent t) (h : KeepsTimes new s t) {time : Tick} {e : Entry} (he : e ∈ t.due)
    (hrun : RunEntry s time e) (htime : distance time s.time.now < 8388608) : Timely t e := by
  obtain ⟨hdelay, -, -⟩ := (ht.passesArm_of_mem_due he).limits
  obtain ⟨hpurpose, chain, hdue⟩ := hrun
  rw [h.prog] at hdelay
  refine ⟨?_, fun hstop => absurd (hpurpose.symm.trans hstop) nofun⟩
  rw [hdue, h.now]
  refine within_add htime ?_
  split
  · decide
  · exact hdelay

/-- A change keeps the bounds if its new entries meet them. -/
theorem KeepsTimes.horizon (h : KeepsTimes new s t) (hs : HorizonLaw s) (hnew : ∀ e ∈ t.due, new e → Timely t e) :
    HorizonLaw t := by
  obtain ⟨hdue, hdeadline, hwalk, hheld⟩ := hs
  refine ⟨fun e he => ?_, fun n d hd => ?_, fun hb hw => ?_, fun size hsize => hheld size (h.held size hsize)⟩
  · rcases h.entry e he with hold | hn
    · rw [h.now, h.prog, h.start]
      exact hdue e hold
    · exact hnew e he hn
  · rw [h.now]
    exact (h.deadline n d (by simpa using hd)).elim (fun hold => hdeadline n d (by simpa using hold)) id
  · rw [h.now]
    rcases h.walk hb hw with ⟨hb', hw', ht⟩ | ht
    · rw [ht]
      exact hwalk hb' hw'
    · simp [ht]

end

/-! ### What a command keeps -/

/-- The due list stays in order, and the times of a consistent state stay within their bounds; NOW stays, or the list is emptied. -/
structure KeepsSchedule (s t : State) : Prop where
  ordered : Ordered s.time.now s.due → Ordered t.time.now t.due
  horizon : Consistent s → Consistent t → HorizonLaw s → HorizonLaw t
  still : t.time.now = s.time.now ∨ t.due = []

section
variable {new : Entry → Prop} {s t : State} {i : SlotId}

theorem KeepsSchedule.refl (s : State) : KeepsSchedule s s := ⟨id, fun _ _ => id, .inl rfl⟩

theorem KeepsSchedule.whenOn {event : State → State} (h : KeepsSchedule s (event s)) : KeepsSchedule s (s.whenOn event) := by
  unfold State.whenOn
  split
  · exact .refl s
  · exact h

/-- An event whose new entries are those of runs launched at reached times. -/
theorem KeepsTimes.keepsSchedule (h : KeepsTimes new s t)
    (hnew : HorizonLaw s → ∀ e, new e → ∃ time, RunEntry s time e ∧ distance time s.time.now < 8388608) : KeepsSchedule s t := by
  refine ⟨h.ordered, fun _ ht hs => h.horizon hs fun e he hn => ?_, .inl h.now⟩
  obtain ⟨time, hrun, htime⟩ := hnew hs e hn
  exact timely_of_runEntry ht h he hrun htime

theorem Runs.keepsSchedule (h : Runs s t) : KeepsSchedule s t :=
  KeepsTimes.keepsSchedule h fun _ _ he => ⟨s.time.now, he, by simp⟩

/-- A change of slots that do not drive, and of items that are no times. -/
theorem KeepsSchedule.of_slots (hslot : ∀ j : SlotId, (t.slot j).state = .driving → t.slot j = s.slot j) (hdue : t.due = s.due)
    (htime : t.time = s.time) (hins : t.ins = s.ins) (hbusy : t.cmd.busy = s.cmd.busy)
    (hwalk : t.cmd.walkCommand = s.cmd.walkCommand) (ht0 : t.cmd.t0 = s.cmd.t0) : KeepsSchedule s t := by
  refine ⟨by rw [hdue, htime]; exact id, fun _ ht hs => ?_, .inl (by rw [htime])⟩
  obtain ⟨hentries, hrest⟩ := hs
  refine ⟨fun e he => ?_, ?_⟩
  · obtain ⟨hwithin, hend⟩ := hentries e (hdue ▸ he)
    refine ⟨by rw [htime]; exact hwithin, fun hstop => ?_⟩
    have hstate : (t.slot e.slot).state = .driving := by simpa [hstop] using ht.state_of_mem_due he
    rw [hslot _ hstate]
    exact hend hstop
  · simp only [State.inp_congr hins, htime, hbusy, hwalk, ht0]
    exact hrest

/-- A slot written so that it does not drive is no DRIVING slot afterwards. -/
theorem State.slot_setSlot_of_driving {x : Slot} (hx : x.state ≠ .driving) {j : SlotId}
    (hj : ((s.setSlot i x).slot j).state = .driving) : (s.setSlot i x).slot j = s.slot j := by
  rw [State.slot_setSlot] at hj ⊢
  split at hj
  · exact absurd hj hx
  next hne => rw [if_neg hne]

/-- The due list emptied, no walk in progress, and no other deadline or held advance than before. -/
theorem horizonLaw_of_empty (hdue : t.due = []) (hidle : t.cmd.busy = false)
    (hdeadline : ∀ n : InId, ∀ d ∈ (t.inp n).deadline, Within 255 t.time.now d)
    (hheld : ∀ size ∈ t.time.heldAdvances, size.toNat ≤ 4096) : HorizonLaw t := by
  refine ⟨fun e he => ?_, fun n d hd => hdeadline n d (by simpa using hd), fun hb => absurd (hidle.symm.trans hb) nofun, hheld⟩
  rw [hdue] at he
  cases he

theorem KeepsSchedule.of_empty (hdue : t.due = []) (h : HorizonLaw s → HorizonLaw t) : KeepsSchedule s t :=
  ⟨fun _ => by rw [hdue]; exact .nil, fun _ _ => h, .inr hdue⟩

/-! ### Expiries (R50 to R59) -/

/-- The START entry of the next occurrence of a periodic run (R59). -/
def NextEntry (s : State) (i : SlotId) (e : Entry) : Prop :=
  (s.slot i).prog.period ≠ 0 ∧ e = ⟨i, (s.slot i).schedStart + (s.slot i).prog.period, .start⟩

/-- The END entry of a pulse (R55). -/
def EndEntry (s : State) (i : SlotId) (e : Entry) : Prop :=
  (s.slot i).prog.kind = .pulse ∧ e = ⟨i, (s.slot i).schedStart + (s.slot i).prog.width.setWidth 24, .stop⟩

/-- What the end of an occurrence may put into the due list: the next start, or the run that the finish or its chain begins (R58). -/
abbrev CourseEntry (s : State) (i : SlotId) (e : Entry) : Prop := RunEntry s s.time.now e ∨ NextEntry s i e

/-- The entries of an event are the same before and after a change that keeps the times. -/
theorem KeepsTimes.courseEntry (h : KeepsTimes new s t) {e : Entry} (he : CourseEntry t i e) : CourseEntry s i e := by
  refine he.imp (fun hrun => h.now ▸ h.runEntry hrun) fun hnext => ?_
  unfold NextEntry at hnext ⊢
  rwa [h.prog, h.start] at hnext

variable (s i) in
theorem keepsTimes_decideCourse (late : Half) : KeepsTimes (CourseEntry s i) s (s.decideCourse i late) := by
  unfold State.decideCourse
  split
  next hgoes =>
    have hperiod : (s.slot i).prog.period ≠ 0 := by
      simp only [Slot.goesOn, Bool.and_eq_true, bne_iff_ne] at hgoes
      exact hgoes.1
    have hset : KeepsTimes (CourseEntry s i) s (s.setSlot i { s.slot i with state := .waiting }) :=
      (KeepsTimes.refl _ s).setSlot rfl rfl
    exact hset.trans (keepsTimes_insertDue _ i (.inr ⟨hperiod, rfl⟩))
  · exact (runs_finish s i late).mono fun _ => .inl

variable (s i) in
theorem keepsTimes_endOccurrence (kind : RecordKind) (late : Half) :
    KeepsTimes (CourseEntry s i) s (s.endOccurrence i kind late) := by
  have hcounted : KeepsTimes (CourseEntry s i) s (s.setSlot i { s.slot i with occurrences := (s.slot i).occurrences + 1 }) :=
    (KeepsTimes.refl _ s).setSlot rfl rfl
  have hcourse : ∀ u : State, KeepsTimes (CourseEntry s i) s u → KeepsTimes (CourseEntry s i) s (u.decideCourse i late) :=
    fun u hu => hu.trans ((keepsTimes_decideCourse u i late).mono fun _ => hu.courseEntry)
  exact hcourse _ (hcounted.trans (.ite _ (keepsTimes_giveRecord _ _ _)))

/-- The occurrence of a START expiry adds the END entry of a pulse to what the end of an occurrence may put in (R51 to R55). -/
theorem keepsTimes_occurrence (s : State) (i : SlotId) (late : Half) :
    KeepsTimes (fun e => CourseEntry s i e ∨ EndEntry s i e) s (s.occurrence i late) := by
  have hend : ∀ kind, KeepsTimes (fun e => CourseEntry s i e ∨ EndEntry s i e) s (s.endOccurrence i kind late) :=
    fun kind => (keepsTimes_endOccurrence s i kind late).mono fun _ => .inl
  unfold State.occurrence
  dsimp only
  split
  · exact hend _
  · exact hend _
  · have hline : KeepsTimes (fun e => CourseEntry s i e ∨ EndEntry s i e) s
        (s.setOut (s.slot i).prog.line ((s.out (s.slot i).prog.line).changeRest (s.slot i).prog.value)) :=
      .of_other_items rfl rfl rfl rfl rfl
    exact hline.trans ((keepsTimes_endOccurrence _ i _ late).mono fun _ => .inl)
  next hk =>
    unfold State.pulseStart
    dsimp only
    split
    · exact hend _
    · split
      · exact hend _
      · have hpushed : KeepsTimes (fun e => CourseEntry s i e ∨ EndEntry s i e) s
            (s.setOut (s.slot i).prog.line ((s.out (s.slot i).prog.line).push ⟨i, (s.slot i).prog.value == .high⟩)) :=
          .of_other_items rfl rfl rfl rfl rfl
        have hdriving := hpushed.setSlot (i := i) (x := { s.slot i with state := .driving }) rfl rfl
        exact hdriving.trans (keepsTimes_insertDue _ i (.inr ⟨hk, rfl⟩))

/-- The next start lies at most 4,194,303 ticks ahead: it is counted from a reached time, the scheduled start or the end of its pulse (R45,
R59). -/
theorem timely_of_nextEntry (ht : Consistent t) (h : KeepsTimes new s t) {e : Entry} (he : e ∈ t.due) (hnext : NextEntry s i e)
    {w : Tick} (hw : w.toNat ≤ (s.slot i).prog.period.toNat) (hreached : distance ((s.slot i).schedStart + w) s.time.now < 8388608) :
    Timely t e := by
  obtain ⟨-, rfl⟩ := hnext
  obtain ⟨-, hperiod, -⟩ := (ht.passesArm_of_mem_due he).limits
  rw [h.prog] at hperiod
  replace hperiod : (s.slot i).prog.period.toNat ≤ 4194303 := hperiod
  refine ⟨?_, nofun⟩
  rw [h.now]
  have hsplit : (s.slot i).schedStart + (s.slot i).prog.period =
      (s.slot i).schedStart + w + ((s.slot i).prog.period - w) := by ring
  have hgap : ((s.slot i).prog.period - w).toNat ≤ 4194303 := by
    rw [BitVec.toNat_sub_of_le (BitVec.le_def.2 hw)]
    omega
  show Within 4194303 s.time.now ((s.slot i).schedStart + (s.slot i).prog.period)
  rw [hsplit]
  exact within_add hreached hgap

/-- The END entry of a pulse whose start is reached lies at most WIDTH ticks ahead (R55). -/
theorem timely_of_endEntry (h : KeepsTimes new s t) {e : Entry} (hend : EndEntry s i e)
    (hreached : distance (s.slot i).schedStart s.time.now < 8388608) : Timely t e := by
  obtain ⟨hk, rfl⟩ := hend
  have := (s.slot i).prog.width.isLt
  rw [Timely, h.now, h.prog, h.start]
  refine ⟨within_add hreached ?_, fun _ => ⟨hk, rfl⟩⟩
  rw [BitVec.toNat_setWidth]
  omega

/-- The state in which the occurrence of a START expiry is taken meets the bounds: no entry left in the list is its slot's (R41, R50). -/
theorem horizonLaw_expiryBegun (hs : HorizonLaw s) (hother : ∀ e ∈ s.due, e.slot ≠ i) (due : Tick) :
    HorizonLaw (expiryBegun s i due) := by
  have hset : HorizonLaw (s.setSlot i { s.slot i with schedStart := due }) := by
    obtain ⟨hentries, hrest⟩ := hs
    refine ⟨fun e he => ?_, hrest⟩
    rw [State.slot_setSlot_of_ne s _ (hother e he)]
    exact hentries e he
  unfold expiryBegun
  dsimp only
  split
  · rw [← State.wakeRequest_eq]
    exact (keepsTimes_wakeRequest (fun _ => False) _).horizon hset nofun
  · exact hset

/-- The head that an examination hands over is reached (R46). -/
theorem State.reached_of_dueHead {e : Entry} (h : s.dueHead = some e) : distance e.due s.time.now < 8388608 := by
  unfold State.dueHead at h
  split at h
  · cases h
  · exact (reached_iff _ _).1 (Option.filter_eq_some_iff.1 h).2

/-- An expiry keeps the order and the bounds if its event does in the state without the head. -/
theorem keepsSchedule_expire {p : Purpose} {event : State → SlotId → Tick → State}
    (hevent : ∀ e rest, s.due = e :: rest → distance e.due s.time.now < 8388608 → e.purpose = p →
      KeepsSchedule s (event { s with due := rest } e.slot e.due)) : KeepsSchedule s (s.expire p event) := by
  unfold State.expire
  split
  next e he =>
    obtain ⟨rest, hdue⟩ := State.dueHead_eq_some he
    split
    next hp =>
      rw [hdue]
      exact hevent e rest hdue (State.reached_of_dueHead he) (by simpa using hp)
    · exact .refl s
  · exact .refl s

/-- The head taken out of the list (R47). -/
theorem keepsTimes_rest (new : Entry → Prop) {e : Entry} {rest : List Entry} (hdue : s.due = e :: rest) :
    KeepsTimes new s { s with due := rest } := by
  have htail := keepsTimes_tail new s
  rwa [hdue] at htail

variable (s) in
/-- START_EXPIRY: what follows is counted from the head's due time (R50, R55, R59). -/
theorem keepsSchedule_expire_start : KeepsSchedule s (s.expire .start State.startExpiry) := by
  refine keepsSchedule_expire fun e rest hdue hreached _ => ?_
  have hrest := keepsTimes_rest (fun _ => False) hdue
  rw [State.startExpiry_eq]
  generalize hu : expiryBegun { s with due := rest } e.slot e.due = u
  generalize lateness e.due _ = late
  have hstart : (u.slot e.slot).schedStart = e.due := by rw [← hu, expiryBegun_slot]
  have hnow : u.time.now = s.time.now := by rw [← hu, expiryBegun_now]
  have hkeeps := keepsTimes_occurrence u e.slot late
  rw [← hnow] at hreached
  refine ⟨fun ho => hkeeps.ordered ?_, fun hs ht hlaw => hkeeps.horizon ?_ fun e' he' hnew => ?_, .inl (hkeeps.now.trans hnow)⟩
  · rw [hnow, ← hu, expiryBegun_due]
    exact hrest.ordered ho
  · rw [← hu]
    exact horizonLaw_expiryBegun (hrest.horizon hlaw nofun) (hs.ne_head hdue) _
  · rcases hnew with (hrun | hnext) | hend
    · exact timely_of_runEntry ht hkeeps he' hrun (by simp)
    · exact timely_of_nextEntry (w := 0) ht hkeeps he' hnext (Nat.zero_le _) (by simpa [hstart] using hreached)
    · exact timely_of_endEntry hkeeps hend (by rw [hstart]; exact hreached)

variable (s) in
/-- END_EXPIRY: the next start lies after the end of the pulse, since WIDTH is below PERIOD (R16, R56, R59). -/
theorem keepsSchedule_expire_stop : KeepsSchedule s (s.expire .stop State.endExpiry) := by
  refine keepsSchedule_expire fun e rest hdue hreached hstop => ?_
  have hhead : e ∈ s.due := by simp [hdue]
  have hrest := keepsTimes_rest (fun _ => False) hdue
  have hremoved : KeepsTimes (fun _ => False) s (State.removeClaim { s with due := rest } e.slot) :=
    hrest.trans (.of_other_items rfl rfl rfl rfl rfl)
  unfold State.endExpiry
  generalize State.removeClaim { s with due := rest } e.slot = u at hremoved ⊢
  generalize lateness e.due _ = late
  have hkeeps := keepsTimes_endOccurrence u e.slot .occur late
  refine ⟨hkeeps.ordered ∘ hremoved.ordered, fun hs ht hlaw => hkeeps.horizon (hremoved.horizon hlaw nofun) fun e' he' hnew => ?_,
    .inl (hkeeps.now.trans hremoved.now)⟩
  obtain ⟨hk, hend⟩ := (hlaw.timely hhead).2 hstop
  rcases hnew with hrun | hnext
  · exact timely_of_runEntry ht hkeeps he' hrun (by simp)
  · have hperiod : (s.slot e.slot).prog.period ≠ 0 := hremoved.prog e.slot ▸ hnext.1
    obtain ⟨-, -, hwidth⟩ := (hs.passesArm_of_mem_due hhead).limits
    have hlt := hwidth hk hperiod
    refine timely_of_nextEntry (w := (s.slot e.slot).prog.width.setWidth 24) ht hkeeps he' hnext ?_ ?_
    · rw [hremoved.prog, BitVec.toNat_setWidth]
      exact (Nat.mod_le _ _).trans hlt.le
    · rw [hremoved.start, hremoved.now, ← hend]
      exact hreached

/-! ### COMMAND writes and visits (spec/08) -/

theorem KeepsTimes.complete (h : KeepsTimes new s t) (result : ResultCode) (value : Byte) :
    KeepsTimes new s (t.complete result value) :=
  ⟨h.now, h.prog, h.start, h.ordered, h.entry, h.deadline, h.walk, h.held⟩

theorem keepsSchedule_slotCommand {effect : State → SlotId → Answer} (h : ∀ i, KeepsSchedule s (effect s i).complete) :
    KeepsSchedule s (s.slotCommand effect) := by
  unfold State.slotCommand
  split
  · exact h _
  · exact Runs.keepsSchedule ((KeepsTimes.refl _ s).complete _ _)

variable (s) in
/-- RELEASE gives a slot the defaults that is in no collection (R14). -/
theorem keepsSchedule_releaseSlot (i : SlotId) : KeepsSchedule s (s.releaseSlot i).complete := by
  unfold State.releaseSlot
  split
  · exact .of_slots (fun _ => State.slot_setSlot_of_driving (x := {}) nofun) rfl rfl rfl rfl rfl rfl
  all_goals exact Runs.keepsSchedule ((KeepsTimes.refl _ s).complete _ _)

variable (s) in
/-- A group walk takes NOW as its T0 (R143). -/
theorem runs_startWalk (w : WalkCommand) : Runs s (s.startWalk w) := by
  unfold State.startWalk
  split
  · refine (KeepsTimes.refl _ s).setCmd fun _ hw => .inr ?_
    replace hw : w = .launchGroup := hw
    simp [hw]
  · exact (KeepsTimes.refl _ s).complete _ _

variable (s) in
theorem keepsSchedule_takeCommand (code : Byte) : KeepsSchedule s (s.takeCommand code) := by
  have hruns : ∀ {a : Answer}, Runs s a.state → KeepsSchedule s a.complete := fun h => Runs.keepsSchedule (KeepsTimes.complete h _ _)
  unfold State.takeCommand
  split
  · exact hruns (keepsTimes_allocSlot _ s)
  · exact keepsSchedule_slotCommand fun i => hruns (runs_armSlot s i)
  · exact keepsSchedule_slotCommand fun i => hruns (runs_launchSlot s i)
  · exact keepsSchedule_slotCommand fun i => hruns (keepsTimes_cancelSlot _ s i)
  · exact keepsSchedule_slotCommand (keepsSchedule_releaseSlot s)
  · exact (runs_startWalk s _).keepsSchedule
  · exact (runs_startWalk s _).keepsSchedule
  · exact hruns (keepsTimes_startTime _ s)
  · exact hruns (keepsTimes_stopTime _ s)
  · exact hruns (keepsTimes_dozeTime _ s)
  · exact hruns (keepsTimes_wakeTime _ s)
  · exact hruns (runs_flushReports s)
  · exact Runs.keepsSchedule ((KeepsTimes.refl _ s).complete _ _)

variable (s) in
theorem keepsSchedule_commandWrite (code : Byte) : KeepsSchedule s (s.commandWrite code) := by
  unfold State.commandWrite
  split
  · exact Runs.keepsSchedule (.of_other_items rfl rfl rfl rfl rfl)
  · exact keepsSchedule_takeCommand s code

variable (s) in
/-- A visit begins no run but one launched at T0 by a LAUNCH_GROUP walk (R145, R146). -/
theorem keepsTimes_walkAct (i : SlotId) :
    KeepsTimes (fun e => s.cmd.walkCommand = .launchGroup ∧ RunEntry s s.cmd.t0 e) s (s.walkAct i) := by
  unfold State.walkAct
  split
  next hw =>
    have hlaunched := keepsTimes_launch s.noteExamination ⟨i, .group, groupByte s.cmd.walkGroup, s.cmd.t0⟩
    exact (keepsTimes_noteExamination _ s).trans (hlaunched.mono fun _ he => ⟨hw, he⟩)
  · cases ht : s.cancel i with
    | none => exact .refl _ s
    | some t => exact keepsTimes_cancel _ ht
  · exact .refl _ s

/-- The walk items after a visit are those of the same walk, or of none (R144, R149). -/
theorem KeepsTimes.visited (h : KeepsTimes new s t) (acted : Bool) : KeepsTimes new s (visited t acted) := by
  have hwalk : ((walkAfter t.cmd acted).busy = true → t.cmd.busy = true) ∧
      (walkAfter t.cmd acted).walkCommand = t.cmd.walkCommand ∧ (walkAfter t.cmd acted).t0 = t.cmd.t0 := by
    unfold walkAfter
    dsimp only
    split
    · exact ⟨nofun, rfl, rfl⟩
    · exact ⟨id, rfl, rfl⟩
  obtain ⟨hbusy, hcommand, ht0⟩ := hwalk
  have hset : KeepsTimes new s { t with cmd := walkAfter t.cmd acted } := h.setCmd fun hb hw => by
    rw [ht0]
    exact h.walk (hbusy hb) (hcommand ▸ hw)
  exact hset.trans (.of_other_items rfl rfl rfl rfl rfl)

variable (s) in
theorem keepsSchedule_takeVisit : KeepsSchedule s s.takeVisit := by
  by_cases h : s.cmd.busy = true ∧ s.cmd.walkPos < 32
  · obtain ⟨hbusy, hpos⟩ := h
    rw [State.takeVisit_eq hbusy hpos]
    refine (((keepsTimes_walkAct s _).ite _).visited _).keepsSchedule fun hs e he => ?_
    obtain ⟨hwalk, hrun⟩ := he
    exact ⟨s.cmd.t0, hrun, hs.reached_t0 hbusy hwalk⟩
  · have hstay : s.takeVisit = s := dif_neg h
    rw [hstay]
    exact .refl s

/-! ### Register accesses (spec/09) -/

theorem InLine.write_deadline {l l' : InLine} {f : Nat} {b : Byte} (h : l.write f b = some l') :
    ∀ d ∈ l'.deadline, d ∈ l.deadline := by
  unfold InLine.write at h
  split at h
  · obtain rfl := Option.some.inj h
    unfold InLine.writeConfig
    dsimp only
    split
    · exact nofun
    · exact fun _ => id
  · obtain rfl := Option.some.inj h
    exact fun _ => id
  · cases h

/-- A stored field leaves its slot HELD (R12). -/
theorem Slot.state_of_write {x y : Slot} {f : Nat} {b : Byte} (h : x.write f b = some y) : y.state = .held := by
  by_cases hx : x.state = .free ∨ x.state = .held
  · rw [Slot.write_of_unarmed hx] at h
    obtain ⟨p, -, rfl⟩ := Option.map_eq_some_iff.1 h
    rfl
  · rw [Slot.write_eq_none (.inr (.inr (not_or.1 hx)))] at h
    cases h

theorem keepsTimes_writeSetup (new : Entry → Prop) {f : Nat} {b : Byte} (ht : s.writeSetup f b = some t) : KeepsTimes new s t := by
  unfold State.writeSetup at ht
  split at ht
  case h_5 => cases ht
  case h_4 => exact Option.some.inj ht ▸ .of_other_items rfl rfl rfl rfl rfl
  all_goals
    split at ht
    · exact Option.some.inj ht ▸ .of_eq rfl rfl rfl (fun _ => id) rfl rfl
    · cases ht

/-- A field stored, and FIELD_SEL moved on (R158, R160). -/
theorem keepsSchedule_writeField {r : RecordRef} {f : Nat} {b : Byte} (ht : s.writeField r f b = some t) (port : HostPort) :
    KeepsSchedule s { t with port := port } := by
  have hruns : Runs s t → KeepsSchedule s { t with port := port } :=
    fun h => Runs.keepsSchedule (h.trans (KeepsTimes.of_other_items rfl rfl rfl rfl rfl))
  unfold State.writeField at ht
  split at ht
  next i =>
    obtain ⟨x, hx, rfl⟩ := Option.map_eq_some_iff.1 ht
    have hheld : x.state ≠ .driving := by simp [Slot.state_of_write hx]
    exact .of_slots (fun _ => State.slot_setSlot_of_driving hheld) rfl rfl rfl rfl rfl rfl
  next =>
    obtain ⟨l, hl, rfl⟩ := Option.map_eq_some_iff.1 ht
    exact hruns ((KeepsTimes.refl _ s).setInp fun d hd => .inl (InLine.write_deadline hl d hd))
  next => exact hruns (keepsTimes_writeSetup _ ht)
  next => cases ht
  next => cases ht

variable (s)

theorem keepsSchedule_dataWrite (b : Byte) : KeepsSchedule s (s.dataWrite b) := by
  unfold State.dataWrite
  dsimp only
  cases ht : (if s.fieldInRange then s.writeField s.selected s.port.fieldSel.toNat b else none) with
  | none => exact Runs.keepsSchedule (.of_other_items rfl rfl rfl rfl rfl)
  | some t =>
    split at ht
    · exact keepsSchedule_writeField ht _
    · cases ht

theorem runs_dataRead : Runs s s.dataRead := by
  have hsnapshot : KeepsTimes (RunEntry s s.time.now) s s.snapshotOnRead := by
    unfold State.snapshotOnRead
    split
    · exact .ite _ (.of_other_items rfl rfl rfl rfl rfl)
    all_goals exact .refl _ s
  exact hsnapshot.trans (.of_other_items rfl rfl rfl rfl rfl)

theorem runs_recSelWrite (b : Byte) : Runs s (s.recSelWrite b) := by
  unfold State.recSelWrite
  dsimp only
  split <;> exact .of_other_items rfl rfl rfl rfl rfl

theorem runs_setOuts (outs : Vector OutLine 16) : Runs s { s with outs := outs } := KeepsTimes.of_other_items rfl rfl rfl rfl rfl

theorem runs_setBank (bank : Bank) (b : Byte) (set : OutLine → Bool → OutLine) : Runs s (s.setBank bank b set) := runs_setOuts s _

/-- A soft reset empties the due list and abandons a walk; deadlines and held advances stay (R49, R115, R151, R176). -/
theorem keepsSchedule_softReset : KeepsSchedule s s.softReset := by
  refine .of_empty rfl fun hs => ?_
  obtain ⟨-, hdeadline, -, hheld⟩ := hs
  refine horizonLaw_of_empty rfl rfl (fun n d hd => hdeadline n d ?_) hheld
  simpa [State.softReset, State.inp, InLine.softReset] using hd

theorem keepsSchedule_controlWrite (b : Byte) : KeepsSchedule s (s.controlWrite b) := by
  unfold State.controlWrite
  split
  · exact keepsSchedule_softReset s
  · exact .refl s

theorem keepsSchedule_registerWrite (address : BitVec 5) (b : Byte) : KeepsSchedule s (s.registerWrite address b) := by
  have hother : ∀ {t : State}, KeepsTimes (RunEntry s s.time.now) s t → KeepsSchedule s t := Runs.keepsSchedule
  unfold State.registerWrite
  split
  · exact keepsSchedule_controlWrite s b
  · exact hother (.of_other_items rfl rfl rfl rfl rfl)
  · exact hother (.of_other_items rfl rfl rfl rfl rfl)
  · exact keepsSchedule_commandWrite s b
  · exact hother ((KeepsTimes.refl _ s).setCmd fun hb hw => .inl ⟨hb, hw, rfl⟩)
  · exact (runs_recSelWrite s b).keepsSchedule
  · exact hother (.of_other_items rfl rfl rfl rfl rfl)
  · exact keepsSchedule_dataWrite s b
  · exact (runs_popReport s).keepsSchedule
  · exact (runs_setBank s .low b _).keepsSchedule
  · exact (runs_setBank s .high b _).keepsSchedule
  · exact (runs_setBank s .low b _).keepsSchedule
  · exact (runs_setBank s .high b _).keepsSchedule
  · exact (runs_setBank s .low b _).keepsSchedule
  · exact (runs_setBank s .high b _).keepsSchedule
  · exact hother (.of_other_items rfl rfl rfl rfl rfl)

/-- A hardware reset leaves no time to keep (R40, R49, R114, R150). -/
theorem keepsSchedule_reset {pins : Vector Bool 8} (hdue : t.due = []) (htime : t.time = {}) (hcmd : t.cmd = {})
    (hins : t.ins = (State.resetWith pins).ins) : KeepsSchedule s t := by
  refine .of_empty hdue fun _ => horizonLaw_of_empty hdue (by rw [hcmd]) (fun n d hd => ?_) (by rw [htime]; exact nofun)
  rw [State.inp_congr hins, State.resetWith_inp] at hd
  cases hd

/-! ### Every command but an advance -/

/-- The state that every command but an advance leaves, row by row. -/
theorem exec_keepsSchedule {c : Instr} (hadvance : ∀ source, c ≠ .advance source) :
    ∃ t, exec c s = .next t ∧ KeepsSchedule s t := by
  have hcommand : ∀ code, KeepsSchedule s (s.whenOn (State.commandWrite code)) :=
    fun code => (keepsSchedule_commandWrite s code).whenOn
  have hevent : ∀ {event : State → State}, KeepsTimes (RunEntry s s.time.now) s (event s) → KeepsSchedule s (s.whenOn event) :=
    fun h => (Runs.keepsSchedule h).whenOn
  cases c with
  | alloc => exact ⟨_, rfl, hcommand _⟩
  | arm => exact ⟨_, rfl, hcommand _⟩
  | launch => exact ⟨_, rfl, hcommand _⟩
  | cancel => exact ⟨_, rfl, hcommand _⟩
  | release => exact ⟨_, rfl, hcommand _⟩
  | launchGroup => exact ⟨_, rfl, hcommand _⟩
  | cancelGroup => exact ⟨_, rfl, hcommand _⟩
  | start => exact ⟨_, rfl, hcommand _⟩
  | stop => exact ⟨_, rfl, hcommand _⟩
  | doze => exact ⟨_, rfl, hcommand _⟩
  | wake => exact ⟨_, rfl, hcommand _⟩
  | flush => exact ⟨_, rfl, hcommand _⟩
  | badCommand code => exact ⟨_, rfl, hcommand code⟩
  | pop value => exact ⟨_, rfl, hevent (runs_popReport s)⟩
  | softReset value => exact ⟨_, rfl, (keepsSchedule_controlWrite s value).whenOn⟩
  | hardwareReset => exact ⟨_, rfl, keepsSchedule_reset s (pins := s.pins) rfl rfl rfl rfl⟩
  | resetRelease levels => exact ⟨_, rfl, keepsSchedule_reset s (pins := pinLevels levels) rfl rfl rfl rfl⟩
  | recSelWrite value => exact ⟨_, rfl, hevent (runs_recSelWrite s value)⟩
  | dataRead => exact ⟨_, rfl, hevent (runs_dataRead s)⟩
  | dataWrite value => exact ⟨_, rfl, (keepsSchedule_dataWrite s value).whenOn⟩
  | now0Read => exact ⟨_, rfl, hevent (.of_other_items rfl rfl rfl rfl rfl)⟩
  | irqFlagsWrite value => exact ⟨_, rfl, hevent (.of_other_items rfl rfl rfl rfl rfl)⟩
  | irqEnableWrite value => exact ⟨_, rfl, hevent (.of_other_items rfl rfl rfl rfl rfl)⟩
  | lineRestWrite bank value => exact ⟨_, rfl, hevent (runs_setBank s bank value _)⟩
  | lineEnWrite bank value => exact ⟨_, rfl, hevent (runs_setBank s bank value _)⟩
  | lineOdWrite bank value => exact ⟨_, rfl, hevent (runs_setBank s bank value _)⟩
  | registerWrite address value => exact ⟨_, rfl, (keepsSchedule_registerWrite s address value).whenOn⟩
  | advance source => exact absurd rfl (hadvance source)
  | readyEvent => exact ⟨_, rfl, hevent (keepsTimes_takeReady _ s)⟩
  | rawChange line level => exact ⟨_, rfl, Runs.keepsSchedule (keepsTimes_pinChange _ s line level)⟩
  | qualificationComplete line => exact ⟨_, rfl, hevent (keepsTimes_completeQualification _ s line)⟩
  | startExpiry => exact ⟨_, rfl, (keepsSchedule_expire_start s).whenOn⟩
  | endExpiry => exact ⟨_, rfl, (keepsSchedule_expire_stop s).whenOn⟩
  | inputLaunch line => exact ⟨_, rfl, hevent (runs_deliverNext s line)⟩
  | visit => exact ⟨_, rfl, (keepsSchedule_takeVisit s).whenOn⟩

end

end Sys2Proof.Machine
end

section
/-! Advances keep the due list in order and the times within their bounds (spec/02, R25, R43, R45). -/

namespace Sys2Proof.Machine

/-- The due list stays as it is and in order, the times within their bounds, and what is reached stays reached. -/
structure MovesOn (s t : State) : Prop where
  due : t.due = s.due
  horizon : HorizonLaw s → HorizonLaw t
  ordered : HorizonLaw s → Ordered s.time.now s.due → Ordered t.time.now t.due
  reached : ∀ e ∈ s.due, reached e.due s.time.now = true → reached e.due t.time.now = true

/-- An advance at which the reached test does not turn back leaves a time reached, or brings it nearer (R25, R45). -/
theorem Within.advance {bound : Nat} {now size d : Tick} (h : Within bound now d) (hback : ¬ TurnsBack now size d)
    (hbound : bound ≤ 4194303) (hsize : size.toNat ≤ 4096) : Within bound (now + size) d := by
  have hround := distance_add_distance d now
  have hround' := distance_add_distance d (now + size)
  have hadd := distance_add d now size
  unfold TurnsBack at hback
  unfold Within at h ⊢
  omega

/-- A reached time stays reached (R45). -/
theorem reached_advance {now size d : Tick} (h : distance d now < 8388608) (hback : ¬ TurnsBack now size d) :
    distance d (now + size) < 8388608 := by
  have hlt : distance d now + size.toNat < 8388608 := not_le.1 fun hle => hback ⟨h, hle⟩
  rwa [distance_add_of_lt hlt]

section
variable {s t u : State}

theorem MovesOn.refl (s : State) : MovesOn s s := ⟨rfl, id, fun _ => id, fun _ _ => id⟩

theorem MovesOn.trans (h₁ : MovesOn s t) (h₂ : MovesOn t u) : MovesOn s u where
  due := h₂.due.trans h₁.due
  horizon := h₂.horizon ∘ h₁.horizon
  ordered hs := h₂.ordered (h₁.horizon hs) ∘ h₁.ordered hs
  reached e he := h₂.reached e (h₁.due ▸ he) ∘ h₁.reached e he

theorem MovesOn.whenOn {event : State → State} (h : MovesOn s (event s)) : MovesOn s (s.whenOn event) := by
  unfold State.whenOn
  split
  · exact .refl s
  · exact h

/-- A change of the time base that leaves NOW, and holds back none but small advances. -/
theorem MovesOn.of_time {base : TimeBase} (hnow : base.now = s.time.now)
    (hheld : HorizonLaw s → ∀ size ∈ base.heldAdvances, size.toNat ≤ 4096) : MovesOn s { s with time := base } := by
  refine ⟨rfl, fun hs => ?_, fun _ ho => ?_, fun e _ hr => ?_⟩
  · have hsizes := hheld hs
    obtain ⟨hdue, hdeadline, hwalk, -⟩ := hs
    rw [← hnow] at hdue hdeadline hwalk
    exact ⟨hdue, hdeadline, hwalk, hsizes⟩
  · rw [← hnow] at ho
    exact ho
  · rw [← hnow] at hr
    exact hr

/-- An advance that need not wait is made (R45, R103, R144). -/
theorem MovesOn.made {size : Tick} (hwait : ¬ AdvanceWaits s size) (hsize : HorizonLaw s → size.toNat ≤ 4096) {base : TimeBase}
    (hnow : base.now = s.time.now + size) (hheld : ∀ x ∈ base.heldAdvances, x ∈ s.time.heldAdvances) :
    MovesOn s { s with time := base } := by
  have hentry : ∀ e ∈ s.due, ¬ TurnsBack s.time.now size e.due := fun e he hb => hwait (.inr (.inr (.inl ⟨e, he, hb⟩)))
  have hline : ∀ n : InId, ∀ d ∈ (s.inp n).deadline.toList, ¬ TurnsBack s.time.now size d :=
    fun n d hd hb => hwait (.inr (.inr (.inr (.inl ⟨n, d, hd, hb⟩))))
  have hwalk : s.cmd.busy = true → s.cmd.walkCommand = .launchGroup → ¬ TurnsBack s.time.now size s.cmd.t0 :=
    fun hb hw ht => hwait (.inr (.inr (.inr (.inr ⟨hb, hw, ht⟩))))
  refine ⟨rfl, fun hs => ?_, fun hs ho => ?_, fun e he hr => ?_⟩
  · have hsmall := hsize hs
    obtain ⟨hentries, hdeadlines, ht0, hsizes⟩ := hs
    refine ⟨fun e he => ?_, fun n d hd => ?_, fun hb hw => ?_, fun x hx => hsizes x (hheld x hx)⟩
    · obtain ⟨hwithin, hend⟩ := hentries e he
      refine ⟨?_, hend⟩
      show Within 4194303 base.now e.due
      rw [hnow]
      exact hwithin.advance (hentry e he) (le_refl _) hsmall
    · show Within 255 base.now d
      rw [hnow]
      exact (hdeadlines n d hd).advance (hline n d hd) (by omega) hsmall
    · show distance s.cmd.t0 base.now < 8388608
      rw [hnow]
      exact reached_advance (ht0 hb hw) (hwalk hb hw)
  · show Ordered base.now s.due
    rw [hnow]
    refine orderOutlivesAdvance s.time.now size s.due ho ?_ fun e he hr => ?_
    · have := hsize hs
      omega
    · exact not_le.1 fun hle => hentry e he ⟨(reached_iff _ _).1 hr, hle⟩
  · show Machine.reached e.due base.now = true
    rw [hnow, reached_iff]
    exact reached_advance ((reached_iff _ _).1 hr) (hentry e he)

/-- An advance that falls due is made or held back (R175). -/
theorem movesOn_advanceDue (s : State) {size : Tick} (hsize : size.toNat ≤ 4096) : MovesOn s (s.advanceDue size) := by
  rw [State.advanceDue_eq]
  unfold advanceTaken
  split
  · refine .of_time rfl fun hs x hx => ?_
    rcases List.mem_append.1 hx with hx | hx
    · exact hs.held_le x hx
    · rw [List.mem_singleton.1 hx]
      exact hsize
  next hwait => exact .made (fun hw => hwait (.inl hw)) (fun _ => hsize) rfl fun _ => id

/-- The counts do not matter to the times. -/
theorem movesOn_counts (s : State) (count : Byte) (slow : Nat) :
    MovesOn s { s with time := { s.time with prescaleCount := count, slowCount := slow } } :=
  .of_time rfl HorizonLaw.held_le

/-- An event of CLKIN or of the slow oscillator: it only counts, or an advance of a tick or of K falls due (R27, R34). -/
theorem movesOn_advance (s : State) (hlaw : TimeLaw s.time) (source : AdvanceSource) : MovesOn s (s.advance source) := by
  have htick : ∀ u : State, MovesOn u (u.advanceDue 1) := fun u => movesOn_advanceDue u (by decide)
  cases source with
  | clkinEdge =>
    show MovesOn s s.clkinEdge
    unfold State.clkinEdge
    split
    · split
      · exact (movesOn_counts s 0 s.time.slowCount).trans (htick _)
      · exact movesOn_counts s _ s.time.slowCount
    · exact .refl s
  | prescaler =>
    show MovesOn s s.prescalerFull
    unfold State.prescalerFull
    split
    · exact (movesOn_counts s 0 s.time.slowCount).trans (htick _)
    · exact .refl s
  | slowPart =>
    show MovesOn s s.slowPart
    unfold State.slowPart
    split
    · exact movesOn_counts s s.time.prescaleCount _
    · exact .refl s
  | slowPeriod =>
    obtain ⟨-, -, -, -, -, hcoarse, -⟩ := hlaw
    have hsize : (s.time.coarse.setWidth 24).toNat ≤ 4096 := by
      rw [BitVec.toNat_setWidth]
      exact (Nat.mod_le _ _).trans hcoarse.2
    show MovesOn s s.slowPeriod
    unfold State.slowPeriod
    split
    · exact (movesOn_counts s s.time.prescaleCount 0).trans (movesOn_advanceDue _ hsize)
    · exact .refl s
  | held =>
    show MovesOn s s.makeHeld
    cases hheld : s.time.heldAdvances with
    | nil =>
      have hstay : s.makeHeld = s := by simp [State.makeHeld, hheld]
      rw [hstay]
      exact .refl s
    | cons size rest =>
      rw [State.makeHeld_eq hheld]
      split
      · exact .refl s
      next hwait =>
        refine .made hwait (fun hs => hs.held_le size (by simp [hheld])) rfl fun x hx => ?_
        rw [hheld]
        exact List.mem_cons_of_mem _ hx

end

/-- Every command keeps the bounds, the order and what is reached, from a state that meets its laws. -/
theorem exec_keepsHorizon {c : Instr} {s t : State} (hs : Consistent s) (htime : TimeLaw s.time) (hlaw : HorizonLaw s)
    (ho : Ordered s.time.now s.due) (he : exec c s = .next t) :
    HorizonLaw t ∧ Ordered t.time.now t.due ∧
      ∀ e ∈ s.due, e ∈ t.due → reached e.due s.time.now = true → reached e.due t.time.now = true := by
  by_cases hadvance : ∃ source, c = .advance source
  · obtain ⟨source, rfl⟩ := hadvance
    obtain rfl := Host.Outcome.next.inj he
    have hmoves := (movesOn_advance s htime source).whenOn (event := fun u => u.advance source)
    exact ⟨hmoves.horizon hlaw, hmoves.ordered hlaw ho, fun e hmem _ => hmoves.reached e hmem⟩
  · obtain ⟨u, hu, hkeeps⟩ := exec_keepsSchedule s (not_exists.1 hadvance)
    obtain rfl := Host.Outcome.next.inj (hu.symm.trans he)
    refine ⟨hkeeps.horizon hs (hs.exec he) hlaw, hkeeps.ordered ho, fun e _ hmem hr => ?_⟩
    rcases hkeeps.still with hnow | hdue
    · rw [hnow]
      exact hr
    · rw [hdue] at hmem
      cases hmem

/-- Settles O60: a command that is no advance only takes entries out and inserts them where R44 says, at most 4,194,303 ticks after a
reached time; an advance moves all times alike, and none of them past half the circle. -/
theorem dueListKeepsOrderAndHorizon : Obligations.DueListKeepsOrderAndHorizon := by
  refine ⟨fun c s t hadvance ho he => ?_, fun s t hs htime hlaw ho hstep => ?_⟩
  · obtain ⟨u, hu, hkeeps⟩ := exec_keepsSchedule s hadvance
    exact Host.Outcome.next.inj (hu.symm.trans he) ▸ hkeeps.ordered ho
  · unfold step at hstep
    split at hstep
    next => exact Host.Outcome.next.inj hstep ▸ ⟨hlaw, ho, fun _ _ _ => id⟩
    next c rest _ =>
      have hfront : Consistent { s with pending := rest } := hs.keep (.of_other_items rfl rfl rfl rfl rfl)
      exact exec_keepsHorizon (s := { s with pending := rest }) hfront htime hlaw ho hstep

end Sys2Proof.Machine
end

section
/-! Launches (spec/04): the LAUNCH command, the launches of an input line's delivery (spec/06 section 6.4), and how far ahead the
entries of chain runs and pulses lie. -/

namespace Sys2Proof.Machine

/-! ### LAUNCH (R67) -/

theorem exec_launch {s : State} {i : SlotId} (h : TakesCommands s) (ha : ArgIs s i) :
    exec .launch s = .next (withResult (s.launchSlot i).state (s.launchSlot i).result.code (s.launchSlot i).value) :=
  congrArg Host.Outcome.next ((State.whenOn_commandWrite h 0x03).trans (State.slotCommand_of_argIs ha State.launchSlot))

theorem exec_launch_of_large {s : State} (h : TakesCommands s) (hlarge : 0x20 ≤ s.cmd.arg.toNat) :
    exec .launch s = .next (withResult s 0x02 0) :=
  congrArg Host.Outcome.next ((State.whenOn_commandWrite h 0x03).trans (State.slotCommand_of_large hlarge State.launchSlot))

/-- The mark of an examination decides no launch (R69 to R74, log entry 30). -/
@[simp] theorem outcomeOf_examNoted (s : State) (l : Launch) : outcomeOf (examNoted s) l = outcomeOf s l := rfl

theorem State.launchSlot_eq (s : State) (i : SlotId) :
    let l : Launch := ⟨i, .command, 0, s.time.now⟩
    s.launchSlot i = ⟨launched (examNoted s) l, (outcomeOf s l).result, 0⟩ := by
  simp [State.launchSlot, State.noteExamination_eq, State.launch_eq]

/-- The result of a LAUNCH and its code (R67, R140). -/
theorem LaunchOutcome.result_code (o : LaunchOutcome) : o.result.code = launchResult o := by cases o <;> rfl

/-- Settles O17: the launch goes by the table of section 4.2, and the table's outcome gives the result. -/
theorem launchCommandTellsOutcome : Obligations.LaunchCommandTellsOutcome := by
  intro s hs
  constructor
  · intro i ha
    simp only [exec_launch hs ha, State.launchSlot_eq, LaunchOutcome.result_code]
  · exact exec_launch_of_large hs

/-! ### Entries that lie ahead (R55, R65) -/

/-- A time 1 to 8,388,608 ticks ahead of NOW is not reached (R25). -/
theorem reached_eq_false_of_ahead {now d : Tick} (hpos : 1 ≤ distance now d) (hhalf : distance now d ≤ 8388608) :
    reached d now = false := by
  have hround := distance_add_distance d now
  rw [← Bool.not_eq_true, reached_iff]
  omega

/-- The first entry of a run that a chain launch begins or restarts lies DELAY ticks ahead of the launch time, and at least one (R65). -/
theorem distance_launchDue_of_chain {p : Program} {l : Launch} (hchain : l.kind = .chain) :
    distance l.time (launchDue p l) = max p.delay.toNat 1 := by
  unfold launchDue
  by_cases hdelay : p.delay = 0
  · rw [if_pos ⟨hchain, hdelay⟩, distance_add, distance_self, hdelay]
    rfl
  · have hpos : p.delay.toNat ≠ 0 := fun h => hdelay (BitVec.eq_of_toNat_eq h)
    have := p.delay.isLt
    rw [if_neg fun h => hdelay h.2, distance_add, distance_self]
    omega

/-- A start whose lateness is below WIDTH lies less than WIDTH ticks behind NOW: the saturation of R26 does not hide more. -/
theorem distance_lt_of_lateness_lt {due now : Tick} {width : Half} (h : (lateness due now).toNat < width.toNat) :
    distance due now < width.toNat := by
  have := width.isLt
  rw [lateness_toNat] at h
  omega

/-- The END entry of a pulse lies as far ahead of NOW as the lateness of the start leaves of WIDTH (R55). -/
theorem distance_add_width {due now : Tick} {width : Half} (h : distance due now < width.toNat) :
    distance now (due + width.setWidth 24) = width.toNat - distance due now := by
  have hround := distance_add_distance due now
  have := width.isLt
  rw [distance_add, BitVec.toNat_setWidth]
  omega

/-- Settles O18: both entries lie at least one tick and less than half the circle ahead. -/
theorem chainAndPulseEntriesLieAhead : Obligations.ChainAndPulseEntriesLieAhead := by
  refine ⟨fun p l hdelay hchain => ?_, fun due now width hlate => ?_⟩
  · have hahead := distance_launchDue_of_chain (p := p) hchain
    exact ⟨reached_eq_false_of_ahead (by omega) (by omega), hahead⟩
  · have hstart := distance_lt_of_lateness_lt hlate
    have hahead := distance_add_width hstart
    have := width.isLt
    exact ⟨reached_eq_false_of_ahead (by omega) (by omega), by omega, by omega⟩

/-! ### INPUT_LAUNCH (R66, R106, R107) -/

theorem exec_inputLaunch {s : State} (h : s.inReset = false) (n : InId) : exec (.inputLaunch n) s = .next (s.deliverNext n) :=
  congrArg Host.Outcome.next (State.whenOn_of_on h fun u => u.deliverNext n)

/-- The launch of the delivery's front slot, and the completion if that was the last (R106, R107). -/
theorem State.deliverNext_eq {s : State} {n : InId} {d : Delivery} {i : SlotId} {rest : List SlotId}
    (hd : (s.inp n).delivery = some d) (hslots : d.slots = i :: rest) :
    let u := s.setInp n { s.inp n with delivery := some { d with slots := rest, delivered := d.delivered + 1 } }
    s.deliverNext n = (launched (examNoted u) ⟨i, .input, BitVec.ofNat 8 n.val, s.time.now⟩).completeIfEmpty n := by
  simp [State.deliverNext, hd, hslots, State.noteExamination_eq, State.launch_eq]

/-- Settles O38, by the slots that the launch leaves in the delivery. -/
theorem inputLaunchDelivers : Obligations.InputLaunchDelivers := by
  intro n s d i rest hon hd hslots u v
  have hdelivery : (v.inp n).delivery = some { d with slots := rest, delivered := d.delivered + 1 } := by simp [v, u]
  rw [exec_inputLaunch hon, State.deliverNext_eq hd hslots]
  refine ⟨fun hrest => ?_, fun hrest => ⟨(deliveryClosed v n).comparePin n, exec_rawChange_of_same_pins ?_ ?_, ?_⟩⟩
  · exact congrArg Host.Outcome.next (State.completeIfEmpty_of_left v n _ hdelivery hrest)
  · simp [v, u]
  · simp [v, u, hon]
  · exact congrArg Host.Outcome.next (State.completeIfEmpty_of_empty v n _ hdelivery hrest)

end Sys2Proof.Machine
end

section
/-! Output lines (spec/05): the registers that set an item of eight lines at once (R89, R92), and the pin of a line (R83, R91). -/

namespace Sys2Proof.Machine

/-! ### The eight lines of a register (R173) -/

@[simp] theorem bankOf_lineOf (bank : Bank) (k : Fin 8) : bankOf (lineOf bank k) = bank := by
  have := k.isLt
  cases bank <;> simp [bankOf, lineOf]

@[simp] theorem lineOf_mod (bank : Bank) (k : Fin 8) : (lineOf bank k).val % 8 = k.val := by
  have := k.isLt
  cases bank <;> simp only [lineOf] <;> omega

/-- A line is one of the eight of its register. -/
theorem lineOf_bankOf (n : OutId) : lineOf (bankOf n) ⟨n.val % 8, Nat.mod_lt _ (by decide)⟩ = n := by
  have := n.isLt
  apply Fin.ext
  unfold bankOf
  split <;> simp only [lineOf] <;> omega

/-- What a line holds after a write of a line register. -/
theorem State.out_setBank (s : State) (bank : Bank) (b : Byte) (set : OutLine → Bool → OutLine) (n : OutId) :
    (s.setBank bank b set).out n = if bankOf n = bank then set (s.out n) (b.getLsbD (n.val % 8)) else s.out n := by
  simp [State.setBank, State.out]

theorem State.out_setBank_lineOf (s : State) (bank : Bank) (b : Byte) (set : OutLine → Bool → OutLine) (k : Fin 8) :
    (s.setBank bank b set).out (lineOf bank k) = set (s.out (lineOf bank k)) (b.getLsbD k.val) := by
  simp [State.out_setBank]

theorem State.out_setBank_of_ne (s : State) {bank : Bank} (b : Byte) (set : OutLine → Bool → OutLine) {n : OutId}
    (hn : ∀ j : Fin 8, n ≠ lineOf bank j) : (s.setBank bank b set).out n = s.out n := by
  have hbank : bankOf n ≠ bank := fun h => hn _ (h ▸ lineOf_bankOf n).symm
  rw [State.out_setBank, if_neg hbank]

/-- A command that writes a line register sets its item in the register's eight lines and changes nothing else. -/
theorem exec_setBank {c : Instr} {s : State} {bank : Bank} {b : Byte} {set : OutLine → Bool → OutLine} (hon : s.inReset = false)
    (hc : exec c s = .next (s.whenOn fun u => u.setBank bank b set)) :
    ∃ t, exec c s = .next t ∧ t = { s with outs := t.outs } ∧
      ∀ k : Fin 8, t.out (lineOf bank k) = set (s.out (lineOf bank k)) (b.getLsbD k.val) ∧
        ∀ n : OutId, (∀ j : Fin 8, n ≠ lineOf bank j) → t.out n = s.out n := by
  rw [State.whenOn_of_on hon] at hc
  exact ⟨_, hc, rfl, fun k => ⟨s.out_setBank_lineOf bank b set k, fun _ hn => s.out_setBank_of_ne b set hn⟩⟩

/-- Settles O34: the three line registers differ in the item that they set. -/
theorem lineWritesSetEightLines : Obligations.LineWritesSetEightLines := by
  intro bank b s hon
  exact ⟨exec_setBank (c := .lineRestWrite bank b) hon rfl, exec_setBank (c := .lineEnWrite bank b) hon rfl,
    exec_setBank (c := .lineOdWrite bank b) hon rfl⟩

/-! ### The pin of a line (R91) -/

theorem OutLine.pin_eq_drivenLow_iff (l : OutLine) : l.pin = .drivenLow ↔ l.enable = true ∧ l.level = false := by
  unfold OutLine.pin
  split <;> simp [*]

theorem OutLine.pin_eq_drivenHigh_iff (l : OutLine) :
    l.pin = .drivenHigh ↔ l.enable = true ∧ l.openDrain = false ∧ l.level = true := by
  unfold OutLine.pin
  split <;> simp [*]

theorem OutLine.pin_eq_highImpedance_iff (l : OutLine) :
    l.pin = .highImpedance ↔ l.enable = false ∨ (l.openDrain = true ∧ l.level = true) := by
  unfold OutLine.pin
  split <;> simp [*]

/-- Settles O35: outside reset a pin is that of its line. -/
theorem pinsFollowTheLine : Obligations.PinsFollowTheLine := by
  intro s n hon
  have hpin : s.outPin n = (s.out n).pin := if_neg (by simp [hon])
  rw [hpin]
  exact ⟨rfl, OutLine.pin_eq_drivenLow_iff _, OutLine.pin_eq_drivenHigh_iff _, OutLine.pin_eq_highImpedance_iff _⟩

end Sys2Proof.Machine
end

section
/-! The host's own settings: which operations leave them, and the four writes that move one of them each (R92, R156, R166). -/

namespace Sys2Proof.Machine

/-- The items that the host alone sets: every line's enable and open-drain mode, REC_SEL and the interrupt enables. -/
structure HostSettings where
  enable : OutId → Bool
  openDrain : OutId → Bool
  recSel : BitVec 6
  irqEnable : BitVec 6

/-- The host's own settings as a state holds them. -/
def State.hostSettings (s : State) : HostSettings where
  enable n := (s.out n).enable
  openDrain n := (s.out n).openDrain
  recSel := s.port.recSel
  irqEnable := s.port.enables

section
variable (s : State) (i : SlotId) (n : InId)

/-! ### The setters -/

variable {s} in
theorem State.hostSettings_eq {t : State} (henable : ∀ k, (t.out k).enable = (s.out k).enable)
    (hdrain : ∀ k, (t.out k).openDrain = (s.out k).openDrain) (hrecSel : t.port.recSel = s.port.recSel)
    (henables : t.port.enables = s.port.enables) : t.hostSettings = s.hostSettings := by
  simp [State.hostSettings, henable, hdrain, hrecSel, henables]

@[simp] theorem State.setSlot_hostSettings (x : Slot) : (s.setSlot i x).hostSettings = s.hostSettings := rfl
@[simp] theorem State.setInp_hostSettings (l : InLine) : (s.setInp n l).hostSettings = s.hostSettings := rfl
@[simp] theorem State.setPin_hostSettings (level : Bool) : (s.setPin n level).hostSettings = s.hostSettings := rfl

variable {s} in
theorem State.item_setOut {α : Type} {m : OutId} {l : OutLine} (item : OutLine → α) (h : item l = item (s.out m)) (k : OutId) :
    item ((s.setOut m l).out k) = item (s.out k) := by
  rw [State.out_setOut]
  split
  next hk => rw [hk, h]
  · rfl

variable {s} in
/-- A line may take any claims and any rest level. -/
theorem State.setOut_hostSettings {m : OutId} {l : OutLine} (henable : l.enable = (s.out m).enable)
    (hdrain : l.openDrain = (s.out m).openDrain) : (s.setOut m l).hostSettings = s.hostSettings :=
  State.hostSettings_eq (State.item_setOut OutLine.enable henable) (State.item_setOut OutLine.openDrain hdrain) rfl rfl

variable {s} in
theorem State.ite_hostSettings {t : State} (p : Prop) [Decidable p] (h : t.hostSettings = s.hostSettings) :
    (if p then t else s).hostSettings = s.hostSettings := by
  split
  · exact h
  · rfl

variable {s} in
theorem State.whenOn_hostSettings {event : State → State} (h : (event s).hostSettings = s.hostSettings) :
    (s.whenOn event).hostSettings = s.hostSettings := by
  unfold State.whenOn
  split
  · rfl
  · exact h

@[simp] theorem State.insertDue_hostSettings (due : Tick) (p : Purpose) : (s.insertDue i due p).hostSettings = s.hostSettings := rfl
@[simp] theorem State.removeDue_hostSettings : (s.removeDue i).hostSettings = s.hostSettings := rfl
@[simp] theorem State.noteExamination_hostSettings : s.noteExamination.hostSettings = s.hostSettings := rfl
@[simp] theorem State.emptyQueue_hostSettings : s.emptyQueue.hostSettings = s.hostSettings := rfl
@[simp] theorem State.reject_hostSettings : s.reject.hostSettings = s.hostSettings := rfl

@[simp] theorem State.complete_hostSettings (result : ResultCode) (value : Byte) :
    (s.complete result value).hostSettings = s.hostSettings := rfl

@[simp] theorem State.removeClaim_hostSettings : (s.removeClaim i).hostSettings = s.hostSettings := State.setOut_hostSettings rfl rfl

/-! ### Launches, settling and finishing -/

@[simp] theorem State.wakeRequest_hostSettings : s.wakeRequest.hostSettings = s.hostSettings := State.ite_hostSettings _ rfl

@[simp] theorem State.giveRecord_hostSettings (r : Record) : (s.giveRecord r).hostSettings = s.hostSettings := by
  unfold State.giveRecord
  split <;> rfl

@[simp] theorem State.giveFinal_hostSettings (kind : FinalKind) (late : Half) :
    (s.giveFinal i kind late).1.hostSettings = s.hostSettings := by
  unfold State.giveFinal
  split
  · rfl
  · split <;> rfl

@[simp] theorem State.stopRun_hostSettings : (s.stopRun i).hostSettings = s.hostSettings := by
  unfold State.stopRun
  split <;> simp

@[simp] theorem State.beginRun_hostSettings (time : Tick) (chain : Bool) : (s.beginRun i time chain).hostSettings = s.hostSettings := rfl

@[simp] theorem State.markPending_hostSettings : (s.markPending i).hostSettings = s.hostSettings := rfl

@[simp] theorem State.ignoreLaunch_hostSettings (l : Launch) : (s.ignoreLaunch l).hostSettings = s.hostSettings :=
  State.ite_hostSettings _ (s.giveRecord_hostSettings _)

@[simp] theorem State.launchRunning_hostSettings (l : Launch) : (s.launchRunning l).1.hostSettings = s.hostSettings := by
  unfold State.launchRunning
  split
  · simp
  · split <;> simp
  all_goals simp

@[simp] theorem State.launchRetiring_hostSettings (l : Launch) : (s.launchRetiring l).1.hostSettings = s.hostSettings := by
  unfold State.launchRetiring
  split
  · rfl
  · split
    case h_1 | h_2 => split <;> simp
    all_goals simp

@[simp] theorem State.launch_hostSettings (l : Launch) : (s.launch l).1.hostSettings = s.hostSettings := by
  unfold State.launch
  split <;> simp

@[simp] theorem State.chainLaunch_hostSettings (target : SlotId) : (s.chainLaunch i target).hostSettings = s.hostSettings := by
  unfold State.chainLaunch
  dsimp only
  split <;> simp

@[simp] theorem State.settle_hostSettings : (s.settle i).hostSettings = s.hostSettings := by
  unfold State.settle
  split <;> simp

@[simp] theorem State.finish_hostSettings (late : Half) : (s.finish i late).hostSettings = s.hostSettings := by
  have hended : (if (s.giveFinal i .done late).2 then (s.giveFinal i .done late).1.settle i
      else (s.giveFinal i .done late).1).hostSettings = s.hostSettings := by
    split <;> simp
  unfold State.finish
  dsimp only
  split <;> simp [hended]

@[simp] theorem State.retireCompletion_hostSettings : (s.retireCompletion i).hostSettings = s.hostSettings := by
  unfold State.retireCompletion
  split
  · simp
  · simp [State.ite_hostSettings _ s.noteExamination_hostSettings]

@[simp] theorem State.releaseRetiring_hostSettings : (s.releaseRetiring i).hostSettings = s.hostSettings :=
  State.retireCompletion_hostSettings _ i

@[simp] theorem State.releaseInOrder_hostSettings (l : List SlotId) :
    ∀ s : State, (s.releaseInOrder l).hostSettings = s.hostSettings := by
  induction l with
  | nil => exact fun _ => rfl
  | cons i rest ih =>
    intro s
    unfold State.releaseInOrder
    split
    · rfl
    · rw [ih, State.releaseRetiring_hostSettings]

@[simp] theorem State.flushReports_hostSettings : s.flushReports.state.hostSettings = s.hostSettings := by
  simp [State.flushReports]

@[simp] theorem State.popReport_hostSettings : s.popReport.hostSettings = s.hostSettings := by
  unfold State.popReport
  split
  · rfl
  · dsimp only
    split
    · rfl
    · exact State.releaseRetiring_hostSettings _ _

/-! ### Expiries (R50 to R59) -/

@[simp] theorem State.decideCourse_hostSettings (late : Half) : (s.decideCourse i late).hostSettings = s.hostSettings := by
  unfold State.decideCourse State.nextStart
  split <;> simp

@[simp] theorem State.endOccurrence_hostSettings (kind : RecordKind) (late : Half) :
    (s.endOccurrence i kind late).hostSettings = s.hostSettings := by
  unfold State.endOccurrence
  dsimp only
  rw [State.decideCourse_hostSettings]
  exact State.ite_hostSettings _ (State.giveRecord_hostSettings _ _)

/-- A push leaves the line's own settings (R85). -/
@[simp] theorem State.pulseStart_hostSettings (late : Half) : (s.pulseStart i late).hostSettings = s.hostSettings := by
  unfold State.pulseStart
  dsimp only
  split
  · simp
  · split
    · simp
    · simp [State.setOut_hostSettings, OutLine.push]

theorem OutLine.changeRest_settings (l : OutLine) (v : LevelValue) :
    (l.changeRest v).enable = l.enable ∧ (l.changeRest v).openDrain = l.openDrain := by
  cases v <;> exact ⟨rfl, rfl⟩

@[simp] theorem State.occurrence_hostSettings (late : Half) : (s.occurrence i late).hostSettings = s.hostSettings := by
  unfold State.occurrence
  dsimp only
  split
  · simp
  · simp
  · simp [State.setOut_hostSettings, OutLine.changeRest_settings]
  · simp

theorem State.startExpiry_hostSettings (due : Tick) : (s.startExpiry i due).hostSettings = s.hostSettings := by
  unfold State.startExpiry
  dsimp only
  rw [State.occurrence_hostSettings]
  exact State.ite_hostSettings _ (State.wakeRequest_hostSettings _)

theorem State.endExpiry_hostSettings (due : Tick) : (s.endExpiry i due).hostSettings = s.hostSettings := by
  simp [State.endExpiry]

variable {s} in
theorem State.expire_hostSettings (p : Purpose) {event : State → SlotId → Tick → State}
    (h : ∀ u i due, (event u i due).hostSettings = u.hostSettings) : (s.expire p event).hostSettings = s.hostSettings := by
  unfold State.expire
  split
  · exact State.ite_hostSettings _ (h _ _ _)
  · rfl

/-! ### The input unit (R100 to R107) -/

@[simp] theorem State.closeDelivery_hostSettings : (s.closeDelivery n).hostSettings = s.hostSettings := by
  unfold State.closeDelivery
  split
  · rfl
  · exact State.ite_hostSettings _ (s.giveRecord_hostSettings _)

@[simp] theorem State.takeEdge_hostSettings : (s.takeEdge n).hostSettings = s.hostSettings :=
  State.ite_hostSettings _ s.wakeRequest_hostSettings

@[simp] theorem State.qualifiedChange_hostSettings : (s.qualifiedChange n).hostSettings = s.hostSettings := by
  unfold State.qualifiedChange
  refine State.ite_hostSettings _ ?_
  dsimp only
  split <;> simp

@[simp] theorem State.takeRawChange_hostSettings : (s.takeRawChange n).hostSettings = s.hostSettings := by
  unfold State.takeRawChange
  dsimp only
  split
  · simp
  · split
    · simp
    · split <;> simp

@[simp] theorem State.comparePin_hostSettings : (s.comparePin n).hostSettings = s.hostSettings :=
  State.ite_hostSettings _ (s.takeRawChange_hostSettings n)

@[simp] theorem State.completeIfEmpty_hostSettings : (s.completeIfEmpty n).hostSettings = s.hostSettings :=
  State.ite_hostSettings _ (by simp)

@[simp] theorem State.completeQualification_hostSettings : (s.completeQualification n).hostSettings = s.hostSettings :=
  State.ite_hostSettings _ (by simp)

theorem State.pinChange_hostSettings (level : Bool) : (s.pinChange n level).hostSettings = s.hostSettings :=
  State.whenOn_hostSettings (s := s.setPin n level) (State.comparePin_hostSettings _ n)

@[simp] theorem State.deliverNext_hostSettings : (s.deliverNext n).hostSettings = s.hostSettings := by
  unfold State.deliverNext
  split
  · rfl
  · split <;> simp

@[simp] theorem State.unbind_hostSettings : (s.unbind i).hostSettings = s.hostSettings :=
  State.ite_hostSettings _ (by simp [State.leaveBinding])

/-! ### Slot commands (R13 to R19, R67) -/

@[simp] theorem State.cancelActive_hostSettings : (s.cancelActive i).hostSettings = s.hostSettings := by
  have hstopped : (if (s.slot i).state == .bound then s else s.stopRun i).hostSettings = s.hostSettings := by
    split <;> simp
  unfold State.cancelActive
  dsimp only
  refine (State.ite_hostSettings _ (State.setSlot_hostSettings _ i _)).trans ?_
  simpa using hstopped

@[simp] theorem State.cancelRetiring_hostSettings : (s.cancelRetiring i).hostSettings = s.hostSettings := by
  unfold State.cancelRetiring
  dsimp only
  split <;> simp

variable {s i} in
theorem State.cancel_hostSettings {t : State} (ht : s.cancel i = some t) : t.hostSettings = s.hostSettings := by
  unfold State.cancel at ht
  split at ht
  case h_1 | h_2 => cases ht
  case h_6 => exact Option.some.inj ht ▸ s.cancelRetiring_hostSettings i
  all_goals exact Option.some.inj ht ▸ s.cancelActive_hostSettings i

theorem State.cancelSlot_hostSettings : (s.cancelSlot i).state.hostSettings = s.hostSettings := by
  unfold State.cancelSlot
  split
  next ht => exact State.cancel_hostSettings ht
  · rfl

theorem State.allocSlot_hostSettings : s.allocSlot.state.hostSettings = s.hostSettings := by
  unfold State.allocSlot
  split <;> simp

theorem State.releaseSlot_hostSettings : (s.releaseSlot i).state.hostSettings = s.hostSettings := by
  unfold State.releaseSlot
  split <;> simp

theorem State.enterArmed_hostSettings : (s.enterArmed i).hostSettings = s.hostSettings := by
  unfold State.enterArmed
  split <;> simp [State.joinBinding]

theorem State.armSlot_hostSettings : (s.armSlot i).state.hostSettings = s.hostSettings := by
  unfold State.armSlot
  split
  · split
    · rfl
    · exact s.enterArmed_hostSettings i
  · rfl

theorem State.launchSlot_hostSettings : (s.launchSlot i).state.hostSettings = s.hostSettings := by
  simp [State.launchSlot]

/-! ### The time base (R24 to R35) -/

theorem State.startTime_hostSettings : s.startTime.state.hostSettings = s.hostSettings := by
  unfold State.startTime
  dsimp only
  split <;> rfl

theorem State.stopTime_hostSettings : s.stopTime.state.hostSettings = s.hostSettings := by
  unfold State.stopTime
  split <;> rfl

theorem State.dozeTime_hostSettings : s.dozeTime.state.hostSettings = s.hostSettings := by
  unfold State.dozeTime
  split
  · split <;> rfl
  · rfl

theorem State.wakeTime_hostSettings : s.wakeTime.state.hostSettings = s.hostSettings := by
  unfold State.wakeTime
  split <;> rfl

theorem State.takeReady_hostSettings : s.takeReady.hostSettings = s.hostSettings := State.ite_hostSettings _ rfl

theorem State.advanceDue_hostSettings (size : Tick) : (s.advanceDue size).hostSettings = s.hostSettings := by
  unfold State.advanceDue
  split <;> rfl

theorem State.clkinEdge_hostSettings : s.clkinEdge.hostSettings = s.hostSettings := by
  refine State.ite_hostSettings _ ?_
  split
  · exact State.advanceDue_hostSettings _ 1
  · rfl

theorem State.makeHeld_hostSettings : s.makeHeld.hostSettings = s.hostSettings := by
  unfold State.makeHeld
  split
  · rfl
  · split <;> rfl

theorem State.advance_hostSettings (source : AdvanceSource) : (s.advance source).hostSettings = s.hostSettings := by
  cases source with
  | clkinEdge => exact s.clkinEdge_hostSettings
  | prescaler => exact State.ite_hostSettings _ (State.advanceDue_hostSettings _ 1)
  | slowPart => exact State.ite_hostSettings _ rfl
  | slowPeriod => exact State.ite_hostSettings _ (State.advanceDue_hostSettings _ _)
  | held => exact s.makeHeld_hostSettings

/-! ### COMMAND writes and visits (spec/08) -/

theorem State.slotCommand_hostSettings {effect : State → SlotId → Answer}
    (h : ∀ i, (effect s i).state.hostSettings = s.hostSettings) : (s.slotCommand effect).hostSettings = s.hostSettings := by
  unfold State.slotCommand
  split
  next i _ => exact h i
  · rfl

theorem State.startWalk_hostSettings (w : WalkCommand) : (s.startWalk w).hostSettings = s.hostSettings := by
  unfold State.startWalk
  split <;> rfl

theorem State.takeCommand_hostSettings (code : Byte) : (s.takeCommand code).hostSettings = s.hostSettings := by
  unfold State.takeCommand
  split
  · exact s.allocSlot_hostSettings
  · exact s.slotCommand_hostSettings s.armSlot_hostSettings
  · exact s.slotCommand_hostSettings s.launchSlot_hostSettings
  · exact s.slotCommand_hostSettings s.cancelSlot_hostSettings
  · exact s.slotCommand_hostSettings s.releaseSlot_hostSettings
  · exact s.startWalk_hostSettings _
  · exact s.startWalk_hostSettings _
  · exact s.startTime_hostSettings
  · exact s.stopTime_hostSettings
  · exact s.dozeTime_hostSettings
  · exact s.wakeTime_hostSettings
  · exact s.flushReports_hostSettings
  · rfl

theorem State.commandWrite_hostSettings (code : Byte) : (s.commandWrite code).hostSettings = s.hostSettings := by
  unfold State.commandWrite
  split
  · rfl
  · exact s.takeCommand_hostSettings code

theorem State.walkAct_hostSettings : (s.walkAct i).hostSettings = s.hostSettings := by
  unfold State.walkAct
  split
  · simp
  · cases ht : s.cancel i with
    | none => rfl
    | some t => exact State.cancel_hostSettings ht
  · rfl

theorem State.takeVisit_hostSettings : s.takeVisit.hostSettings = s.hostSettings := by
  by_cases h : s.cmd.busy = true ∧ s.cmd.walkPos < 32
  · obtain ⟨hbusy, hpos⟩ := h
    rw [State.takeVisit_eq hbusy hpos]
    exact State.ite_hostSettings _ (s.walkAct_hostSettings _)
  · exact congrArg State.hostSettings (dif_neg h)

/-! ### Register accesses (spec/09) -/

variable {s} in
theorem State.writeField_hostSettings {t : State} {r : RecordRef} {f : Nat} {b : Byte} (ht : s.writeField r f b = some t) :
    t.hostSettings = s.hostSettings := by
  unfold State.writeField at ht
  split at ht
  · obtain ⟨x, -, rfl⟩ := Option.map_eq_some_iff.1 ht
    rfl
  · obtain ⟨l, -, rfl⟩ := Option.map_eq_some_iff.1 ht
    rfl
  · unfold State.writeSetup at ht
    split at ht
    case h_5 => cases ht
    case h_4 => exact Option.some.inj ht ▸ rfl
    all_goals
      split at ht
      · exact Option.some.inj ht ▸ rfl
      · cases ht
  · cases ht
  · cases ht

theorem State.dataWrite_hostSettings (b : Byte) : (s.dataWrite b).hostSettings = s.hostSettings := by
  unfold State.dataWrite
  dsimp only
  cases ht : (if s.fieldInRange then s.writeField s.selected s.port.fieldSel.toNat b else none) with
  | none => rfl
  | some t =>
    split at ht
    · exact (State.writeField_hostSettings ht :)
    · cases ht

theorem State.dataRead_hostSettings : s.dataRead.hostSettings = s.hostSettings := by
  unfold State.dataRead State.snapshotOnRead
  split
  · exact State.ite_hostSettings _ rfl
  all_goals rfl

/-- A soft reset takes the claims away and keeps the lines' settings (R97), REC_SEL and the enables (R168). -/
theorem State.softReset_hostSettings : s.softReset.hostSettings = s.hostSettings := by
  have hline : ∀ k, s.softReset.out k = (s.out k).softReset := by simp [State.softReset, State.out]
  refine State.hostSettings_eq (fun k => ?_) (fun k => ?_) rfl rfl
  · rw [hline]
    rfl
  · rw [hline]
    rfl

theorem State.controlWrite_hostSettings (b : Byte) : (s.controlWrite b).hostSettings = s.hostSettings :=
  State.ite_hostSettings _ s.softReset_hostSettings

variable {s} in
/-- A REGISTER_WRITE writes CMD_ARG or FIELD_SEL, is rejected, or does nothing (R154, R168). -/
theorem State.registerWrite_of_other {address : BitVec 5} {b : Byte} (h : isOtherWrite address b = true) :
    s.registerWrite address b = s ∨ s.registerWrite address b = { s with cmd.arg := b } ∨
      s.registerWrite address b = { s with port.fieldSel := b } ∨ s.registerWrite address b = s.reject := by
  unfold isOtherWrite at h
  rw [Bool.and_eq_true, Bool.not_eq_true', Bool.not_eq_true'] at h
  obtain ⟨hrow, hcontrol⟩ := h
  unfold State.registerWrite
  split
  case h_1 haddress =>
    have hbit : b.getLsbD 0 = false := by simpa [show address = 0x01#5 from BitVec.eq_of_toNat_eq haddress] using hcontrol
    exact .inl (if_neg (Bool.eq_false_iff.1 hbit))
  case h_5 => exact .inr (.inl rfl)
  case h_7 => exact .inr (.inr (.inl rfl))
  case h_16 => exact .inr (.inr (.inr rfl))
  all_goals
    next haddress => simp [hasRowOfItsOwn, haddress] at hrow

theorem State.registerWrite_hostSettings {address : BitVec 5} {b : Byte} (h : isOtherWrite address b = true) :
    (s.registerWrite address b).hostSettings = s.hostSettings := by
  rcases State.registerWrite_of_other (s := s) h with h | h | h | h <;> rw [h] <;> rfl

end

/-! ### Every command -/

/-- Each of the host's own settings stays, but for the one that the command writes. -/
structure MovesOwnSetting (c : Instr) (s t : State) : Prop where
  enable : (∀ bank b, c ≠ .lineEnWrite bank b) → ∀ n : OutId, (t.out n).enable = (s.out n).enable
  openDrain : (∀ bank b, c ≠ .lineOdWrite bank b) → ∀ n : OutId, (t.out n).openDrain = (s.out n).openDrain
  recSel : (∀ b, c ≠ .recSelWrite b) → t.port.recSel = s.port.recSel
  irqEnable : (∀ b, c ≠ .irqEnableWrite b) → t.port.enables = s.port.enables

section
variable {c : Instr} {s t : State}

theorem MovesOwnSetting.of_eq (h : t.hostSettings = s.hostSettings) : MovesOwnSetting c s t where
  enable _ := congrFun (congrArg HostSettings.enable h)
  openDrain _ := congrFun (congrArg HostSettings.openDrain h)
  recSel _ := congrArg HostSettings.recSel h
  irqEnable _ := congrArg HostSettings.irqEnable h

theorem MovesOwnSetting.whenOn {event : State → State} (h : MovesOwnSetting c s (event s)) :
    MovesOwnSetting c s (s.whenOn event) := by
  unfold State.whenOn
  split
  · exact .of_eq rfl
  · exact h

/-- An item of the lines that a line register does not set stays (R89, R92). -/
theorem State.item_setBank {α : Type} (s : State) (bank : Bank) (b : Byte) {set : OutLine → Bool → OutLine} (item : OutLine → α)
    (h : ∀ l v, item (set l v) = item l) (n : OutId) : item ((s.setBank bank b set).out n) = item (s.out n) := by
  rw [State.out_setBank]
  split
  · exact h _ _
  · rfl

theorem movesOwnSetting_lineEnWrite (s : State) (bank : Bank) (b : Byte) :
    MovesOwnSetting (.lineEnWrite bank b) s (s.lineEnWrite bank b) where
  enable h := absurd rfl (h bank b)
  openDrain _ := s.item_setBank bank b OutLine.openDrain fun _ _ => rfl
  recSel _ := rfl
  irqEnable _ := rfl

theorem movesOwnSetting_lineOdWrite (s : State) (bank : Bank) (b : Byte) :
    MovesOwnSetting (.lineOdWrite bank b) s (s.lineOdWrite bank b) where
  enable _ := s.item_setBank bank b OutLine.enable fun _ _ => rfl
  openDrain h := absurd rfl (h bank b)
  recSel _ := rfl
  irqEnable _ := rfl

/-- A write of LINE_REST sets none of the host's own settings (R89). -/
theorem State.lineRestWrite_hostSettings (s : State) (bank : Bank) (b : Byte) :
    (s.lineRestWrite bank b).hostSettings = s.hostSettings :=
  State.hostSettings_eq (s.item_setBank bank b OutLine.enable fun _ _ => rfl)
    (s.item_setBank bank b OutLine.openDrain fun _ _ => rfl) rfl rfl

/-- A write of REC_SEL takes the snapshot beside it (R156). -/
theorem movesOwnSetting_recSelWrite (s : State) (b : Byte) : MovesOwnSetting (.recSelWrite b) s (s.recSelWrite b) := by
  have hport : (s.recSelWrite b).outs = s.outs ∧ (s.recSelWrite b).port.enables = s.port.enables := by
    unfold State.recSelWrite
    dsimp only
    split <;> exact ⟨rfl, rfl⟩
  obtain ⟨houts, henables⟩ := hport
  exact ⟨fun _ n => by rw [State.out_congr houts], fun _ n => by rw [State.out_congr houts], fun h => absurd rfl (h b),
    fun _ => henables⟩

theorem movesOwnSetting_irqEnableWrite (s : State) (b : Byte) : MovesOwnSetting (.irqEnableWrite b) s (s.irqEnableWrite b) where
  enable _ _ := rfl
  openDrain _ _ := rfl
  recSel _ := rfl
  irqEnable h := absurd rfl (h b)

/-- Every well-formed command but the hardware reset's two moves at most the setting that it writes. -/
theorem exec_movesOwnSetting (s : State) {c : Instr} (hwf : c.wellFormed = true) (hreset : c ≠ .hardwareReset)
    (hrelease : ∀ levels, c ≠ .resetRelease levels) : ∃ t, exec c s = .next t ∧ MovesOwnSetting c s t := by
  have hevent : ∀ {event : State → State}, (event s).hostSettings = s.hostSettings → MovesOwnSetting c s (s.whenOn event) :=
    fun h => .of_eq (State.whenOn_hostSettings h)
  have hcommand : ∀ code, MovesOwnSetting c s (s.whenOn (State.commandWrite code)) :=
    fun code => hevent (s.commandWrite_hostSettings code)
  cases c with
  | alloc => exact ⟨_, rfl, hcommand _⟩
  | arm => exact ⟨_, rfl, hcommand _⟩
  | launch => exact ⟨_, rfl, hcommand _⟩
  | cancel => exact ⟨_, rfl, hcommand _⟩
  | release => exact ⟨_, rfl, hcommand _⟩
  | launchGroup => exact ⟨_, rfl, hcommand _⟩
  | cancelGroup => exact ⟨_, rfl, hcommand _⟩
  | start => exact ⟨_, rfl, hcommand _⟩
  | stop => exact ⟨_, rfl, hcommand _⟩
  | doze => exact ⟨_, rfl, hcommand _⟩
  | wake => exact ⟨_, rfl, hcommand _⟩
  | flush => exact ⟨_, rfl, hcommand _⟩
  | badCommand code => exact ⟨_, rfl, hcommand code⟩
  | pop value => exact ⟨_, rfl, hevent s.popReport_hostSettings⟩
  | softReset value => exact ⟨_, rfl, hevent (s.controlWrite_hostSettings value)⟩
  | hardwareReset => exact absurd rfl hreset
  | resetRelease levels => exact absurd rfl (hrelease levels)
  | recSelWrite value => exact ⟨_, rfl, (movesOwnSetting_recSelWrite s value).whenOn⟩
  | dataRead => exact ⟨_, rfl, hevent s.dataRead_hostSettings⟩
  | dataWrite value => exact ⟨_, rfl, hevent (s.dataWrite_hostSettings value)⟩
  | now0Read => exact ⟨_, rfl, hevent rfl⟩
  | irqFlagsWrite value => exact ⟨_, rfl, hevent rfl⟩
  | irqEnableWrite value => exact ⟨_, rfl, (movesOwnSetting_irqEnableWrite s value).whenOn⟩
  | lineRestWrite bank value => exact ⟨_, rfl, hevent (s.lineRestWrite_hostSettings bank value)⟩
  | lineEnWrite bank value => exact ⟨_, rfl, (movesOwnSetting_lineEnWrite s bank value).whenOn⟩
  | lineOdWrite bank value => exact ⟨_, rfl, (movesOwnSetting_lineOdWrite s bank value).whenOn⟩
  | registerWrite address value => exact ⟨_, rfl, hevent (s.registerWrite_hostSettings hwf)⟩
  | advance source => exact ⟨_, rfl, hevent (s.advance_hostSettings source)⟩
  | readyEvent => exact ⟨_, rfl, hevent s.takeReady_hostSettings⟩
  | rawChange line level => exact ⟨_, rfl, .of_eq (s.pinChange_hostSettings line level)⟩
  | qualificationComplete line => exact ⟨_, rfl, hevent (s.completeQualification_hostSettings line)⟩
  | startExpiry => exact ⟨_, rfl, hevent (State.expire_hostSettings _ State.startExpiry_hostSettings)⟩
  | endExpiry => exact ⟨_, rfl, hevent (State.expire_hostSettings _ State.endExpiry_hostSettings)⟩
  | inputLaunch line => exact ⟨_, rfl, hevent (s.deliverNext_hostSettings line)⟩
  | visit => exact ⟨_, rfl, hevent s.takeVisit_hostSettings⟩

end

/-- Settles O56, command by command. -/
theorem hostSettingsMoveByHostWrites : Obligations.HostSettingsMoveByHostWrites := by
  intro c s t hwf hstep hreset hrelease
  obtain ⟨u, hu, hmoves⟩ := exec_movesOwnSetting s hwf hreset hrelease
  obtain rfl : u = t := Host.Outcome.next.inj (hu.symm.trans hstep)
  exact ⟨hmoves.enable, hmoves.openDrain, hmoves.recSel, hmoves.irqEnable⟩

end Sys2Proof.Machine
end

section
/-! Input lines (spec/06): raw changes, the completion of a qualification, what the events of one line leave alone, and a write of
CONFIG. -/

namespace Sys2Proof.Machine

/-! ### The comparison of the pin (R100 to R102, R108) -/

section
variable {s : State} {n : InId}

/-- No raw change is due where the pin is at the raw level or a delivery holds the line (R100). -/
theorem State.comparePin_of_not_due (h : s.pin n = (s.inp n).raw ∨ (s.inp n).delivery ≠ none) : s.comparePin n = s := by
  have hdue : s.rawChangeDue n = false := by
    rcases h with h | h <;> simp [State.rawChangeDue, h]
  simp [State.comparePin, hdue]

theorem State.comparePin_of_due (hpin : s.pin n ≠ (s.inp n).raw) (hfree : (s.inp n).delivery = none) :
    s.comparePin n = s.takeRawChange n := by
  simp [State.comparePin, State.rawChangeDue, hpin, hfree]

/-- Under sense OFF the qualified level follows (R108). -/
theorem State.takeRawChange_of_off (hoff : (s.inp n).sense = .off) :
    s.takeRawChange n = s.setInp n { s.inp n with raw := s.pin n, qualified := s.pin n, deadline := none } := by
  simp [State.takeRawChange, hoff]

/-- In QUALIFYING the change is a glitch (R102). -/
theorem State.takeRawChange_of_qualifying (hon : (s.inp n).sense ≠ .off) (hdeadline : (s.inp n).deadline ≠ none) :
    s.takeRawChange n = s.setInp n { s.inp n with raw := s.pin n, deadline := none } := by
  simp [State.takeRawChange, hon, Option.isSome_iff_ne_none.2 hdeadline]

/-- In STEADY with a filter a qualification begins (R101). -/
theorem State.takeRawChange_of_filtered (hon : (s.inp n).sense ≠ .off) (hsteady : (s.inp n).deadline = none)
    (hfilter : (s.inp n).filter ≠ 0) :
    s.takeRawChange n = s.setInp n
      { s.inp n with raw := s.pin n, deadline := some (s.time.now + (s.inp n).filter.setWidth 24) } := by
  simp only [State.takeRawChange, beq_iff_eq, if_neg hon, hsteady, Option.isSome_none, Bool.false_eq_true, if_false,
    if_neg hfilter]

/-- In STEADY without a filter the change is qualified at once (R101). -/
theorem State.takeRawChange_of_unfiltered (hon : (s.inp n).sense ≠ .off) (hsteady : (s.inp n).deadline = none)
    (hfilter : (s.inp n).filter = 0) :
    s.takeRawChange n = (s.setInp n { s.inp n with raw := s.pin n, qualified := s.pin n }).qualifiedChange n := by
  simp [State.takeRawChange, hon, hsteady, hfilter]

/-! ### RAW_CHANGE -/

theorem exec_rawChange (h : s.inReset = false) (n : InId) (level : Bool) :
    exec (.rawChange n level) s = .next ((s.setPin n level).comparePin n) :=
  congrArg Host.Outcome.next (State.whenOn_of_on (s := s.setPin n level) h fun u => u.comparePin n)

/-- Settles O36: a raw change that is due goes by the sense, the qualification state and the filter. -/
theorem rawChangeByLineState : Obligations.RawChangeByLineState := by
  intro n level s hon l u
  have hpin : u.pin n = level := State.pin_setPin_self s n level
  have hinp : u.inp n = l := rfl
  rw [exec_rawChange hon]
  refine ⟨fun hnot => ?_, fun hchange hfree => ?_⟩
  · rw [State.comparePin_of_not_due (s := u) (by rwa [hpin])]
  have hdue : u.comparePin n = u.takeRawChange n := State.comparePin_of_due (by rwa [hpin]) hfree
  rw [hdue]
  refine ⟨fun hoff => ?_, fun hsense hdeadline => ?_, fun hsense hsteady hfilter => ?_, fun hsense hsteady hfilter hmatch => ?_,
    fun hsense hsteady hfilter hmatch => ?_⟩
  · rw [State.takeRawChange_of_off (s := u) hoff, hpin, hinp]
  · rw [State.takeRawChange_of_qualifying (s := u) hsense hdeadline, hpin, hinp]
  · rw [State.takeRawChange_of_filtered (s := u) hsense hsteady hfilter, hpin, hinp]
    rfl
  · rw [State.takeRawChange_of_unfiltered (s := u) hsense hsteady hfilter, hpin, hinp, State.noEdge_eq _ _ (by simpa using hmatch)]
  · rw [State.takeRawChange_of_unfiltered (s := u) hsense hsteady hfilter, hpin, hinp, State.edge_eq _ _ (by simpa using hmatch)]

/-! ### QUALIFICATION_COMPLETE (R103) -/

theorem State.checkReached_iff :
    s.checkReached n = true ↔
      s.time.state ≠ .stopped ∧ ∃ d : Tick, (s.inp n).deadline = some d ∧ reached d s.time.now = true := by
  unfold State.checkReached
  cases (s.inp n).deadline <;> simp

theorem exec_qualificationComplete (h : s.inReset = false) (n : InId) :
    exec (.qualificationComplete n) s = .next (s.completeQualification n) :=
  congrArg Host.Outcome.next (State.whenOn_of_on h fun u => u.completeQualification n)

/-- Settles O37: the deadline check, the edge of a match, and the comparison with the pin. -/
theorem qualificationCompletes : Obligations.QualificationCompletes := by
  intro n s hon l u
  rw [exec_qualificationComplete hon]
  refine ⟨fun d hd hreached hrunning => ?_, fun hstopped => ?_⟩
  · have hcomplete : s.completeQualification n = (u.qualifiedChange n).comparePin n :=
      if_pos (State.checkReached_iff.2 ⟨hrunning, d, hd, hreached⟩)
    have hline : u.inp n = { l with qualified := l.raw, deadline := none } := State.inp_setInp_self ..
    rw [hcomplete]
    refine ⟨fun hmatch => ⟨_, exec_rawChange_of_same_pins ?_ ?_, ?_⟩,
      fun hmatch => ⟨_, exec_rawChange_of_same_pins ?_ ?_, ?_⟩⟩
    · simp [u]
    · simp [u, hon]
    · rw [State.edge_eq u n (by rwa [hline])]
    · rfl
    · exact hon
    · rw [State.noEdge_eq u n (by rwa [hline])]
  · have hunreached : ¬ s.checkReached n = true := by
      rw [State.checkReached_iff]
      rintro ⟨hrunning, d, hd, hreached⟩
      exact hrunning (hstopped d hd hreached)
    exact congrArg Host.Outcome.next (if_neg hunreached)

end

/-! ### What the events of one line leave of the input lines -/

/-- The items of a line that its events do not move, the others at their reset values: sense, filter, both enables, binding list (R98,
R110). -/
def InLine.settings (l : InLine) : InLine :=
  { l with raw := false, qualified := false, deadline := none, events := 0, delivery := none }

theorem InLine.settings_eq_iff {l m : InLine} :
    l.settings = m.settings ↔
      l.sense = m.sense ∧ l.filter = m.filter ∧ l.reportEnable = m.reportEnable ∧ l.wakeEnable = m.wakeEnable ∧
        l.binding = m.binding := by
  simp [InLine.settings]

/-- The second state has the input lines of the first, but for the items of line `n` that its events move. -/
structure MovesOneLine (n : InId) (s t : State) : Prop where
  others : ∀ m : InId, m ≠ n → t.inp m = s.inp m
  own : (t.inp n).settings = (s.inp n).settings

section
variable {n : InId} {s t u : State}

theorem MovesOneLine.of_ins (h : t.ins = s.ins) : MovesOneLine n s t :=
  ⟨fun m _ => State.inp_congr h m, by rw [State.inp_congr h]⟩

theorem MovesOneLine.refl (s : State) : MovesOneLine n s s := .of_ins rfl

theorem MovesOneLine.trans (h₁ : MovesOneLine n s t) (h₂ : MovesOneLine n t u) : MovesOneLine n s u :=
  ⟨fun m hm => (h₂.others m hm).trans (h₁.others m hm), h₂.own.trans h₁.own⟩

/-- Line `n` written with its settings as they were. -/
theorem MovesOneLine.setInp (h : MovesOneLine n s t) {l : InLine} (hl : l.settings = (s.inp n).settings) :
    MovesOneLine n s (t.setInp n l) :=
  ⟨fun m hm => (State.inp_setInp_of_ne t l hm).trans (h.others m hm), by rw [State.inp_setInp_self, hl]⟩

theorem MovesOneLine.ite (p : Prop) [Decidable p] (h : MovesOneLine n s t) : MovesOneLine n s (if p then t else s) := by
  split
  · exact h
  · exact .refl s

theorem MovesOneLine.whenOn {event : State → State} (h : MovesOneLine n s (event s)) : MovesOneLine n s (s.whenOn event) := by
  unfold State.whenOn
  split
  · exact .refl s
  · exact h

variable (s n)

theorem movesOneLine_closeDelivery : MovesOneLine n s (s.closeDelivery n) := by
  unfold State.closeDelivery
  split
  · exact .refl s
  next d _ =>
    have hrecord : MovesOneLine n s (if d.owed then s.giveRecord (d.record n s.time.now) else s) :=
      .ite _ (.of_ins (by rw [State.giveRecord_eq, recorded_ins]))
    exact hrecord.setInp hrecord.own

theorem movesOneLine_takeEdge : MovesOneLine n s (s.takeEdge n) := by
  have hwake : MovesOneLine n s (if (s.inp n).wakeEnable then s.wakeRequest else s) :=
    .ite _ (.of_ins (by rw [State.wakeRequest_eq, woken_ins]))
  exact hwake.setInp rfl

theorem movesOneLine_qualifiedChange : MovesOneLine n s (s.qualifiedChange n) := by
  have hedge := movesOneLine_takeEdge n s
  unfold State.qualifiedChange
  refine .ite _ ?_
  dsimp only
  split
  · exact hedge.trans (movesOneLine_closeDelivery n _)
  · exact hedge

theorem movesOneLine_takeRawChange : MovesOneLine n s (s.takeRawChange n) := by
  have hset {l : InLine} (hl : l.settings = (s.inp n).settings) : MovesOneLine n s (s.setInp n l) := (MovesOneLine.refl s).setInp hl
  unfold State.takeRawChange
  dsimp only
  split
  · exact hset rfl
  · split
    · exact hset rfl
    · split
      · refine .trans ?_ (movesOneLine_qualifiedChange n _)
        exact hset rfl
      · exact hset rfl

theorem movesOneLine_comparePin : MovesOneLine n s (s.comparePin n) := .ite _ (movesOneLine_takeRawChange n s)

theorem movesOneLine_completeIfEmpty : MovesOneLine n s (s.completeIfEmpty n) :=
  .ite _ ((movesOneLine_closeDelivery n s).trans (movesOneLine_comparePin n _))

/-- A launch moves no input line (R64). -/
theorem movesOneLine_noted_launch (l : Launch) : MovesOneLine n s (s.noteExamination.launch l).1 := by
  rw [State.noteExamination_eq, State.launch_eq]
  exact .of_ins (launched_ins (examNoted s) l)

/-- RAW_CHANGE (R100). -/
theorem movesOneLine_pinChange (level : Bool) : MovesOneLine n s (s.pinChange n level) :=
  have hpin : MovesOneLine n s (s.setPin n level) := .of_ins rfl
  hpin.trans (movesOneLine_comparePin n _).whenOn

/-- QUALIFICATION_COMPLETE (R103). -/
theorem movesOneLine_completeQualification : MovesOneLine n s (s.completeQualification n) :=
  have hset : MovesOneLine n s (s.setInp n { s.inp n with qualified := (s.inp n).raw, deadline := none }) :=
    (MovesOneLine.refl s).setInp rfl
  .ite _ ((hset.trans (movesOneLine_qualifiedChange n _)).trans (movesOneLine_comparePin n _))

/-- INPUT_LAUNCH (R106). -/
theorem movesOneLine_deliverNext : MovesOneLine n s (s.deliverNext n) := by
  unfold State.deliverNext
  split
  · exact .refl s
  next d _ =>
    split
    · exact movesOneLine_completeIfEmpty n s
    next i rest _ =>
      have hleft : MovesOneLine n s
          (s.setInp n { s.inp n with delivery := some { d with slots := rest, delivered := d.delivered + 1 } }) :=
        (MovesOneLine.refl s).setInp rfl
      exact (hleft.trans (movesOneLine_noted_launch n _ _)).trans (movesOneLine_completeIfEmpty n _)

end

/-- Settles O39, event by event. -/
theorem inputLinesShareNothing : Obligations.InputLinesShareNothing := by
  intro c n s t hc hstep
  have hmoves : MovesOneLine n s t := by
    rcases hc with rfl | rfl | ⟨level, rfl⟩ <;> obtain rfl := Host.Outcome.next.inj hstep
    · exact (movesOneLine_completeQualification n s).whenOn
    · exact (movesOneLine_deliverNext n s).whenOn
    · exact movesOneLine_pinChange n s level
  exact ⟨hmoves.others, InLine.settings_eq_iff.1 hmoves.own⟩

/-! ### CONFIG (R98, R99, R108, R109) -/

@[simp] theorem Sense.code_ofCode (b : BitVec 2) : (Sense.ofCode b).code = b := by
  revert b; decide

/-- The two low bits of CONFIG are 00 under sense OFF alone. -/
theorem Sense.ofCode_bits_eq_off_iff (b : Byte) : Sense.ofCode (bits b 0 2) = .off ↔ b.getLsbD 0 = false ∧ b.getLsbD 1 = false := by
  revert b; decide

/-- CONFIG joined again from its parts: the bits without an item read 0. -/
theorem config_of_bits (b : Byte) : 0#4 ++ BitVec.ofBool (b.getLsbD 3) ++ BitVec.ofBool (b.getLsbD 2) ++ bits b 0 2 = b &&& 0x0F := by
  revert b; decide

section
variable (l : InLine) (b : Byte)

/-- The write abandons a qualification in progress: sense OFF on a QUALIFYING line (R108). -/
abbrev InLine.AbandonedBy : Prop := Sense.ofCode (bits b 0 2) = .off ∧ l.deadline ≠ none

/-- A write of CONFIG sets the three items, and the two items of the qualification by whether it is abandoned (R99, R108, R109). -/
theorem InLine.writeConfig_eq :
    l.writeConfig b =
      { l with
        sense := .ofCode (bits b 0 2), reportEnable := b.getLsbD 2, wakeEnable := b.getLsbD 3
        qualified := if l.AbandonedBy b then l.raw else l.qualified
        deadline := if l.AbandonedBy b then none else l.deadline } := by
  have habandons : (Sense.ofCode (bits b 0 2) == .off && l.deadline.isSome) = true ↔ l.AbandonedBy b := by
    simp [Option.isSome_iff_ne_none]
  unfold InLine.writeConfig
  by_cases h : l.AbandonedBy b
  · simp only [if_pos (habandons.2 h), if_pos h]
  · simp only [if_neg (mt habandons.1 h), if_neg h]

@[simp] theorem InLine.writeConfig_sense : (l.writeConfig b).sense = .ofCode (bits b 0 2) := by
  rw [InLine.writeConfig_eq]

theorem InLine.writeConfig_config : (l.writeConfig b).config = b &&& 0x0F := by
  rw [InLine.writeConfig_eq, ← config_of_bits b]
  simp [InLine.config]

end

/-- Settles O49, by whether the write abandons a qualification. -/
theorem configWriteSetsLine : Obligations.ConfigWriteSetsLine := by
  refine ⟨⟨rfl, rfl, rfl, rfl⟩, fun l b => ?_⟩
  intro m
  have hsense : m.sense = .ofCode (bits b 0 2) := l.writeConfig_sense b
  have hm := l.writeConfig_eq b
  refine ⟨?_, ?_, ?_, l.writeConfig_config b, ?_, fun hoff hqualifying => ?_, fun hstands => ?_, ?_⟩
  · rw [hsense, Sense.code_ofCode]
    rfl
  · exact congrArg InLine.reportEnable hm
  · exact congrArg InLine.wakeEnable hm
  · rw [hsense, Sense.ofCode_bits_eq_off_iff]
  · rw [hsense] at hoff
    simp only [m, hm, if_pos (show l.AbandonedBy b from ⟨hoff, hqualifying⟩), and_self]
  · rw [hsense] at hstands
    have hkeeps : ¬ l.AbandonedBy b := fun ⟨hoff, hqualifying⟩ => hstands.elim (· hoff) hqualifying
    simp only [m, hm, if_neg hkeeps, and_self]
  · simp only [m, hm, and_self]

end Sys2Proof.Machine
end

section
/-! The queue of waiting commands is no part of the chip: every operation leaves it as it is (log entry 29). -/

namespace Sys2Proof.Machine

section
variable (s : State) (i : SlotId) (n : InId)

/-! ### Operations shared by several commands -/

variable {s} in
/-- An event that is taken or not. -/
theorem State.ite_pending {t : State} (p : Prop) [Decidable p] (h : t.pending = s.pending) :
    (if p then t else s).pending = s.pending := by
  split
  · exact h
  · rfl

variable {s} in
theorem State.whenOn_pending {event : State → State} (h : (event s).pending = s.pending) : (s.whenOn event).pending = s.pending := by
  unfold State.whenOn
  split
  · rfl
  · exact h

@[simp] theorem State.removeClaim_pending : (s.removeClaim i).pending = s.pending := rfl
@[simp] theorem State.insertDue_pending (due : Tick) (p : Purpose) : (s.insertDue i due p).pending = s.pending := rfl
@[simp] theorem State.noteExamination_pending : s.noteExamination.pending = s.pending := rfl
@[simp] theorem State.complete_pending (result : ResultCode) (value : Byte) : (s.complete result value).pending = s.pending := rfl
@[simp] theorem State.reject_pending : s.reject.pending = s.pending := rfl

@[simp] theorem State.wakeRequest_pending : s.wakeRequest.pending = s.pending := by
  rw [State.wakeRequest_eq, woken_pending]

@[simp] theorem State.giveRecord_pending (r : Record) : (s.giveRecord r).pending = s.pending := by
  rw [State.giveRecord_eq, recorded_pending]

@[simp] theorem State.launch_pending (l : Launch) : (s.launch l).1.pending = s.pending := by
  rw [State.launch_eq, launched_pending]

@[simp] theorem runBegun_pending (time due : Tick) (mark : Bool) : (runBegun s i time due mark).pending = s.pending := rfl

@[simp] theorem runAbandoned_pending : (runAbandoned s i).pending = s.pending := by
  unfold runAbandoned
  dsimp only
  split <;> rfl

/-! ### Settling, finishing and releasing -/

@[simp] theorem settled_pending : (settled s i).pending = s.pending := by
  unfold settled
  dsimp only
  split <;> rfl

@[simp] theorem finished_pending (late : Half) : (finished s i late).pending = s.pending := by
  unfold finished
  dsimp only
  split
  · simp
  · split
    · simp
    · rfl

@[simp] theorem chained_pending (target : SlotId) : (chained s i target).pending = s.pending := by
  unfold chained
  dsimp only
  split <;> simp

@[simp] theorem State.finish_pending (late : Half) : (s.finish i late).pending = s.pending := by
  rw [State.finish_eq]
  unfold finishedAndChained
  split <;> simp

@[simp] theorem State.retireCompletion_pending : (s.retireCompletion i).pending = s.pending := by
  unfold State.retireCompletion
  split
  · rfl
  · simp [State.settle_eq, State.ite_pending _ s.noteExamination_pending]

@[simp] theorem State.releaseRetiring_pending : (s.releaseRetiring i).pending = s.pending :=
  State.retireCompletion_pending _ i

@[simp] theorem State.releaseInOrder_pending (l : List SlotId) : ∀ s : State, (s.releaseInOrder l).pending = s.pending := by
  induction l with
  | nil => exact fun _ => rfl
  | cons i rest ih => exact fun s => (apply_ite State.pending ..).trans (by simp [ih])

theorem State.flushReports_pending : s.flushReports.state.pending = s.pending :=
  State.releaseInOrder_pending _ s.emptyQueue

theorem State.popReport_pending : s.popReport.pending = s.pending := by
  unfold State.popReport
  split
  · rfl
  · dsimp only
    split <;> simp

/-! ### Expiries (R50 to R59) -/

@[simp] theorem State.endOccurrence_pending (kind : RecordKind) (late : Half) :
    (s.endOccurrence i kind late).pending = s.pending := by
  unfold State.endOccurrence State.decideCourse State.nextStart
  dsimp only
  split <;> simp [apply_ite State.pending]

@[simp] theorem State.pulseStart_pending (late : Half) : (s.pulseStart i late).pending = s.pending := by
  unfold State.pulseStart
  dsimp only
  split
  · simp
  · split <;> simp

@[simp] theorem State.occurrence_pending (late : Half) : (s.occurrence i late).pending = s.pending := by
  unfold State.occurrence
  dsimp only
  split <;> simp

theorem State.startExpiry_pending (due : Tick) : (s.startExpiry i due).pending = s.pending := by
  simp [State.startExpiry, apply_ite State.pending]

theorem State.endExpiry_pending (due : Tick) : (s.endExpiry i due).pending = s.pending := by
  simp [State.endExpiry]

variable {s} in
theorem State.expire_pending (p : Purpose) {event : State → SlotId → Tick → State}
    (h : ∀ u i due, (event u i due).pending = u.pending) : (s.expire p event).pending = s.pending := by
  unfold State.expire
  split
  · exact State.ite_pending _ (h _ _ _)
  · rfl

/-! ### The input unit (R100 to R107) -/

@[simp] theorem State.closeDelivery_pending : (s.closeDelivery n).pending = s.pending := by
  unfold State.closeDelivery
  split
  · rfl
  · exact State.ite_pending _ (s.giveRecord_pending _)

@[simp] theorem State.qualifiedChange_pending : (s.qualifiedChange n).pending = s.pending := by
  have hedge : (s.takeEdge n).pending = s.pending := State.ite_pending _ s.wakeRequest_pending
  unfold State.qualifiedChange
  refine State.ite_pending _ ?_
  dsimp only
  split <;> simp [hedge]

@[simp] theorem State.comparePin_pending : (s.comparePin n).pending = s.pending := by
  refine State.ite_pending _ ?_
  unfold State.takeRawChange
  dsimp only
  split
  · rfl
  · split
    · rfl
    · split <;> simp

@[simp] theorem State.completeIfEmpty_pending : (s.completeIfEmpty n).pending = s.pending :=
  State.ite_pending _ (by simp)

theorem State.pinChange_pending (level : Bool) : (s.pinChange n level).pending = s.pending :=
  State.whenOn_pending (s := s.setPin n level) (State.comparePin_pending _ n)

theorem State.completeQualification_pending : (s.completeQualification n).pending = s.pending :=
  State.ite_pending _ (by simp)

theorem State.deliverNext_pending : (s.deliverNext n).pending = s.pending := by
  unfold State.deliverNext
  split
  · rfl
  · split <;> simp

@[simp] theorem State.unbind_pending : (s.unbind i).pending = s.pending :=
  State.ite_pending _ (by simp [State.leaveBinding])

/-! ### Slot commands (R13 to R19, R67) -/

@[simp] theorem cancelledRecord_pending : (cancelledRecord s i).pending = s.pending := by
  unfold cancelledRecord
  dsimp only
  split
  · rfl
  · split <;> rfl

@[simp] theorem State.cancelActive_pending : (s.cancelActive i).pending = s.pending := by
  simp [State.cancelActive_eq_unbind, apply_ite State.pending]

@[simp] theorem State.cancelRetiring_pending : (s.cancelRetiring i).pending = s.pending := by
  unfold State.cancelRetiring
  dsimp only
  split <;> simp

/-- A cancel leaves the queue of waiting commands, whether a slot takes it or not. -/
theorem State.cancel_pending : ((s.cancel i).getD s).pending = s.pending := by
  unfold State.cancel
  split <;> simp

theorem State.cancelSlot_pending : (s.cancelSlot i).state.pending = s.pending := by
  have hcancel := s.cancel_pending i
  unfold State.cancelSlot
  cases h : s.cancel i with
  | none => rfl
  | some t => simpa [h] using hcancel

theorem State.allocSlot_pending : s.allocSlot.state.pending = s.pending := by
  unfold State.allocSlot
  split <;> rfl

theorem State.releaseSlot_pending : (s.releaseSlot i).state.pending = s.pending := by
  unfold State.releaseSlot
  split <;> rfl

theorem State.enterArmed_pending : (s.enterArmed i).pending = s.pending := by
  unfold State.enterArmed
  split <;> rfl

theorem State.armSlot_pending : (s.armSlot i).state.pending = s.pending := by
  unfold State.armSlot
  split
  · split
    · rfl
    · exact s.enterArmed_pending i
  · rfl

theorem State.launchSlot_pending : (s.launchSlot i).state.pending = s.pending :=
  State.launch_pending _ _

/-! ### The time base (R24 to R35) -/

theorem State.startTime_pending : s.startTime.state.pending = s.pending := by
  unfold State.startTime
  dsimp only
  split <;> rfl

theorem State.stopTime_pending : s.stopTime.state.pending = s.pending := by
  unfold State.stopTime
  split <;> rfl

theorem State.dozeTime_pending : s.dozeTime.state.pending = s.pending := by
  unfold State.dozeTime
  split
  · split <;> rfl
  · rfl

theorem State.wakeTime_pending : s.wakeTime.state.pending = s.pending := by
  unfold State.wakeTime
  split <;> rfl

theorem State.advanceDue_pending (size : Tick) : (s.advanceDue size).pending = s.pending := by
  unfold State.advanceDue
  split <;> rfl

theorem State.advance_pending (source : AdvanceSource) : (s.advance source).pending = s.pending := by
  cases source with
  | clkinEdge =>
    refine State.ite_pending _ ?_
    split
    · exact State.advanceDue_pending _ 1
    · rfl
  | prescaler => exact State.ite_pending _ (State.advanceDue_pending _ 1)
  | slowPart => exact State.ite_pending _ rfl
  | slowPeriod => exact State.ite_pending _ (State.advanceDue_pending _ _)
  | held =>
    show s.makeHeld.pending = s.pending
    unfold State.makeHeld
    split
    · rfl
    · split <;> rfl

/-! ### COMMAND writes and visits (spec/08) -/

theorem State.slotCommand_pending {effect : State → SlotId → Answer} (h : ∀ i, (effect s i).state.pending = s.pending) :
    (s.slotCommand effect).pending = s.pending := by
  unfold State.slotCommand
  split
  next i _ => exact h i
  · rfl

theorem State.startWalk_pending (w : WalkCommand) : (s.startWalk w).pending = s.pending := by
  unfold State.startWalk
  split <;> rfl

theorem State.takeCommand_pending (code : Byte) : (s.takeCommand code).pending = s.pending := by
  unfold State.takeCommand
  split
  · exact s.allocSlot_pending
  · exact s.slotCommand_pending s.armSlot_pending
  · exact s.slotCommand_pending s.launchSlot_pending
  · exact s.slotCommand_pending s.cancelSlot_pending
  · exact s.slotCommand_pending s.releaseSlot_pending
  · exact s.startWalk_pending _
  · exact s.startWalk_pending _
  · exact s.startTime_pending
  · exact s.stopTime_pending
  · exact s.dozeTime_pending
  · exact s.wakeTime_pending
  · exact s.flushReports_pending
  · rfl

theorem State.commandWrite_pending (code : Byte) : (s.commandWrite code).pending = s.pending := by
  unfold State.commandWrite
  split
  · rfl
  · exact s.takeCommand_pending code

@[simp] theorem State.walkAct_pending : (s.walkAct i).pending = s.pending := by
  unfold State.walkAct
  split
  · simp
  · exact s.cancel_pending i
  · rfl

theorem State.takeVisit_pending : s.takeVisit.pending = s.pending := by
  by_cases h : s.cmd.busy = true ∧ s.cmd.walkPos < 32
  · obtain ⟨hbusy, hpos⟩ := h
    rw [State.takeVisit_eq hbusy hpos]
    exact State.ite_pending _ (s.walkAct_pending _)
  · exact congrArg State.pending (dif_neg h)

/-! ### Register accesses (spec/09) -/

variable {s} in
theorem State.writeField_pending {t : State} {r : RecordRef} {f : Nat} {b : Byte} (ht : s.writeField r f b = some t) :
    t.pending = s.pending := by
  unfold State.writeField at ht
  split at ht
  · obtain ⟨x, -, rfl⟩ := Option.map_eq_some_iff.1 ht
    rfl
  · obtain ⟨l, -, rfl⟩ := Option.map_eq_some_iff.1 ht
    rfl
  · unfold State.writeSetup at ht
    split at ht <;> grind
  · cases ht
  · cases ht

theorem State.dataWrite_pending (b : Byte) : (s.dataWrite b).pending = s.pending := by
  unfold State.dataWrite
  dsimp only
  cases ht : (if s.fieldInRange then s.writeField s.selected s.port.fieldSel.toNat b else none) with
  | none => rfl
  | some t => exact State.writeField_pending (Option.ite_none_right_eq_some.1 ht).2

theorem State.dataRead_pending : s.dataRead.pending = s.pending := by
  unfold State.dataRead State.snapshotOnRead
  split
  · exact State.ite_pending _ rfl
  all_goals rfl

theorem State.recSelWrite_pending (b : Byte) : (s.recSelWrite b).pending = s.pending := by
  unfold State.recSelWrite
  dsimp only
  split <;> rfl

variable {s} in
theorem State.setBank_pending (bank : Bank) (b : Byte) (set : OutLine → Bool → OutLine) :
    (s.setBank bank b set).pending = s.pending := by
  unfold State.setBank
  rfl

theorem State.lineRestWrite_pending (bank : Bank) (b : Byte) : (s.lineRestWrite bank b).pending = s.pending :=
  State.setBank_pending ..

theorem State.lineEnWrite_pending (bank : Bank) (b : Byte) : (s.lineEnWrite bank b).pending = s.pending :=
  State.setBank_pending ..

theorem State.lineOdWrite_pending (bank : Bank) (b : Byte) : (s.lineOdWrite bank b).pending = s.pending :=
  State.setBank_pending ..

theorem State.controlWrite_pending (b : Byte) : (s.controlWrite b).pending = s.pending := State.ite_pending _ rfl

theorem State.registerWrite_pending (address : BitVec 5) (b : Byte) : (s.registerWrite address b).pending = s.pending := by
  unfold State.registerWrite
  split
  case h_1 => exact s.controlWrite_pending b
  case h_4 => exact s.commandWrite_pending b
  case h_6 => exact s.recSelWrite_pending b
  case h_8 => exact s.dataWrite_pending b
  case h_9 => exact s.popReport_pending
  case h_10 | h_11 => exact s.lineRestWrite_pending _ b
  case h_12 | h_13 => exact s.lineEnWrite_pending _ b
  case h_14 | h_15 => exact s.lineOdWrite_pending _ b
  all_goals rfl

end

/-- Settles O2, command by command. -/
theorem everyCommandAnswersNext : Obligations.EveryCommandAnswersNext := by
  intro c s
  have hcommand : ∀ code, (s.whenOn (State.commandWrite code)).pending = s.pending :=
    fun code => State.whenOn_pending (s.commandWrite_pending code)
  cases c with
  | alloc => exact ⟨_, rfl, hcommand _⟩
  | arm => exact ⟨_, rfl, hcommand _⟩
  | launch => exact ⟨_, rfl, hcommand _⟩
  | cancel => exact ⟨_, rfl, hcommand _⟩
  | release => exact ⟨_, rfl, hcommand _⟩
  | launchGroup => exact ⟨_, rfl, hcommand _⟩
  | cancelGroup => exact ⟨_, rfl, hcommand _⟩
  | start => exact ⟨_, rfl, hcommand _⟩
  | stop => exact ⟨_, rfl, hcommand _⟩
  | doze => exact ⟨_, rfl, hcommand _⟩
  | wake => exact ⟨_, rfl, hcommand _⟩
  | flush => exact ⟨_, rfl, hcommand _⟩
  | badCommand code => exact ⟨_, rfl, hcommand code⟩
  | pop value => exact ⟨_, rfl, State.whenOn_pending s.popReport_pending⟩
  | softReset value => exact ⟨_, rfl, State.whenOn_pending (s.controlWrite_pending value)⟩
  | hardwareReset => exact ⟨_, rfl, rfl⟩
  | resetRelease levels => exact ⟨_, rfl, rfl⟩
  | recSelWrite value => exact ⟨_, rfl, State.whenOn_pending (s.recSelWrite_pending value)⟩
  | dataRead => exact ⟨_, rfl, State.whenOn_pending s.dataRead_pending⟩
  | dataWrite value => exact ⟨_, rfl, State.whenOn_pending (s.dataWrite_pending value)⟩
  | now0Read => exact ⟨_, rfl, State.whenOn_pending rfl⟩
  | irqFlagsWrite value => exact ⟨_, rfl, State.whenOn_pending rfl⟩
  | irqEnableWrite value => exact ⟨_, rfl, State.whenOn_pending rfl⟩
  | lineRestWrite bank value => exact ⟨_, rfl, State.whenOn_pending (s.lineRestWrite_pending bank value)⟩
  | lineEnWrite bank value => exact ⟨_, rfl, State.whenOn_pending (s.lineEnWrite_pending bank value)⟩
  | lineOdWrite bank value => exact ⟨_, rfl, State.whenOn_pending (s.lineOdWrite_pending bank value)⟩
  | registerWrite address value => exact ⟨_, rfl, State.whenOn_pending (s.registerWrite_pending address value)⟩
  | advance source => exact ⟨_, rfl, State.whenOn_pending (s.advance_pending source)⟩
  | readyEvent => exact ⟨_, rfl, State.whenOn_pending (State.ite_pending _ rfl)⟩
  | rawChange line level => exact ⟨_, rfl, s.pinChange_pending line level⟩
  | qualificationComplete line => exact ⟨_, rfl, State.whenOn_pending (s.completeQualification_pending line)⟩
  | startExpiry => exact ⟨_, rfl, State.whenOn_pending (State.expire_pending _ State.startExpiry_pending)⟩
  | endExpiry => exact ⟨_, rfl, State.whenOn_pending (State.expire_pending _ State.endExpiry_pending)⟩
  | inputLaunch line => exact ⟨_, rfl, State.whenOn_pending (s.deliverNext_pending line)⟩
  | visit => exact ⟨_, rfl, State.whenOn_pending s.takeVisit_pending⟩

end Sys2Proof.Machine
end

section
/-! The report queue and the retire list (spec/07): POP, the release of a retiring slot that it brings about, and a POP and a cancel in
either order. -/

namespace Sys2Proof.Machine

/-! ### POP (R124) -/

theorem exec_pop {s : State} (h : s.inReset = false) (value : Byte) : exec (.pop value) s = .next s.popReport :=
  congrArg Host.Outcome.next (State.whenOn_of_on h _)

/-- The state with these records in the report queue. -/
def State.withQueue (s : State) (queue : List Record) : State := { s with report := { s.report with queue := queue } }

section
variable {s : State} {head : Record} {rest : List Record}

theorem State.popReport_of_empty (hq : s.report.queue = []) : s.popReport = s := by
  simp [State.popReport, hq]

theorem State.popReport_of_none_retiring (hq : s.report.queue = head :: rest) (hr : s.report.retire = []) :
    s.popReport = s.withQueue rest := by
  simp [State.popReport, State.withQueue, hq, hr]

theorem State.popReport_of_retiring {i : SlotId} {others : List SlotId} {h : HeldRecord} (hq : s.report.queue = head :: rest)
    (hr : s.report.retire = i :: others) (hh : (s.slot i).held = some h) : s.popReport = released (s.withQueue rest) i h := by
  rw [← State.releaseRetiring_eq (s.withQueue rest) i h hh]
  simp [State.popReport, State.withQueue, hq, hr]

end

/-- Settles O40, by the queue and the retire list. -/
theorem popTakesTheHead : Obligations.PopTakesTheHead := by
  intro value s hon
  rw [exec_pop hon]
  refine ⟨fun hq => ?_, fun head rest hq hr => ?_, fun head rest i others h hq hr hh => ?_, ?_⟩
  · rw [State.popReport_of_empty hq]
  · rw [State.popReport_of_none_retiring hq hr]
    rfl
  · rw [State.popReport_of_retiring hq hr hh]
    rfl
  · simp [State.readRegister, State.registerByte, hon]

/-! ### What one release does (R21, R124, R127) -/

/-- A slot whose retire completion begins its pending run (R21). -/
abbrev Slot.RunsAgain (x : Slot) : Prop := x.disarmMark = false ∧ x.pendingMark = true

/-- A slot after its retire completion, by its marks (R21). -/
def Slot.completed (x : Slot) (now : Tick) : Slot :=
  if x.disarmMark then { x with state := .held, disarmMark := false, held := none }
  else if x.pendingMark then
    { x with state := .waiting, pendingMark := false, held := none, occurrences := 0, launchTime := now }
  else { x with state := if x.prog.launch = .once then .held else .bound, held := none }

/-- The due list after the retire completion of slot `i` with content `x` (R21, R44). -/
def dueCompleted (now : Tick) (x : Slot) (i : SlotId) (l : List Entry) : List Entry :=
  if x.RunsAgain then dueInsert now ⟨i, now + x.prog.delay, .start⟩ l else l

/-- A release moves its slot, the due list, the mark of an examination and the report unit, and nothing else. -/
theorem released_eq (s : State) (i : SlotId) (h : HeldRecord) :
    released s i h = { s.setSlot i ((s.slot i).completed s.time.now) with
      due := dueCompleted s.time.now (s.slot i) i s.due
      time := if (s.slot i).RunsAgain then (examNoted s).time else s.time
      report := { storedAtTail s.report (storedFinal h i) with retire := s.report.retire.filter fun j => j != i } } := by
  unfold released
  generalize s.slot i = x
  by_cases hd : x.disarmMark = true
  · simp [hd, Slot.completed, dueCompleted, State.slot, State.setSlot]
  · by_cases hp : x.pendingMark = true
    · simp [hd, hp, Slot.completed, dueCompleted, settled, runBegun, State.slot, State.setSlot]
    · simp [hd, hp, Slot.completed, dueCompleted, settled, State.slot, State.setSlot]

section
variable (s : State) (i : SlotId) (h : HeldRecord)

theorem released_slot (j : SlotId) : (released s i h).slot j = if j = i then (s.slot i).completed s.time.now else s.slot j := by
  rw [released_eq]
  exact State.slot_setSlot s i j _

theorem released_due : (released s i h).due = dueCompleted s.time.now (s.slot i) i s.due := by rw [released_eq]

theorem released_ins : (released s i h).ins = s.ins := by rw [released_eq]; rfl

theorem released_time : (released s i h).time = if (s.slot i).RunsAgain then (examNoted s).time else s.time := by rw [released_eq]

theorem released_now : (released s i h).time.now = s.time.now := by
  rw [released_time]
  split <;> rfl

theorem released_report : (released s i h).report =
    { storedAtTail s.report (storedFinal h i) with retire := s.report.retire.filter fun j => j != i } := by rw [released_eq]

end

/-- A release of a disarmed slot: it stores the record and leaves the slot HELD (R21). -/
theorem released_of_disarmed {s : State} {i : SlotId} {h : HeldRecord} (hd : (s.slot i).disarmMark = true) :
    released s i h = { s.setSlot i { s.slot i with state := .held, disarmMark := false, held := none } with
      report := { storedAtTail s.report (storedFinal h i) with retire := s.report.retire.filter fun j => j != i } } := by
  rw [released_eq]
  simp [Slot.completed, dueCompleted, hd]

/-! ### POP and CANCEL in either order (R125) -/

section
variable {s : State} {i : SlotId}

/-- A cancel of a slot that makes no final records leaves it HELD (R5, R18). -/
theorem cancelledRecord_of_unreported (h : (s.slot i).prog.report = .none) :
    cancelledRecord s i = s.setSlot i { s.slot i with state := .held } :=
  if_pos h

/-- A cancel whose record finds room leaves the slot HELD (R18). -/
theorem cancelledRecord_of_room (h : (s.slot i).prog.report ≠ .none) (hroom : s.report.queue.length < 16) :
    cancelledRecord s i = { s.setSlot i { s.slot i with state := .held } with
      report := storedAtTail s.report (storedFinal (finalNow s i .cancelled 0) i) } :=
  (if_neg h).trans (if_pos hroom)

/-- A cancel whose record the full queue refuses leaves the slot RETIRING (R18, R121). -/
theorem cancelledRecord_of_full (h : (s.slot i).prog.report ≠ .none) (hfull : s.report.queue.length = 16) :
    cancelledRecord s i = retired s i true (finalNow s i .cancelled 0) :=
  (if_neg h).trans (if_neg (by omega))

section
variable {head : Record} {rest : List Record} (hq : s.report.queue = head :: rest) (hr : s.report.retire = [])
  (hd : (s.slot i).disarmMark = false) (hh : (s.slot i).held = none)
include hq hr hd hh

/-- The POP after a cancel on a full queue stores the record that the queue had refused, and the slot is HELD (R21, R125). -/
theorem State.popReport_of_retired (h : HeldRecord) (result value : Byte) :
    (withResult (retired s i true h) result value).popReport =
      withResult { (s.withQueue rest).setSlot i { s.slot i with state := .held } with
        report := storedAtTail (s.withQueue rest).report (storedFinal h i) } result value := by
  obtain ⟨u, hu⟩ : ∃ u, withResult (retired s i true h) result value = u := ⟨_, rfl⟩
  have hslot : (u.withQueue rest).slot i = { s.slot i with state := .retiring, disarmMark := true, held := some h } := by
    rw [← hu]
    exact State.slot_setSlot_self s i _
  have hsettled : { (u.withQueue rest).slot i with state := .held, disarmMark := false, held := none } =
      { s.slot i with state := .held } := by
    simp [hslot, hd, hh]
  rw [hu, State.popReport_of_retiring (s := u) (others := []) (by rw [← hu]; exact hq) (by simp [← hu, withResult, retired, hr])
    (congrArg Slot.held hslot), released_of_disarmed (congrArg Slot.disarmMark hslot), hsettled, ← hu]
  refine State.ext_fields rfl rfl rfl rfl ?_ rfl rfl rfl ?_ rfl rfl rfl
  · have htwice := State.setSlot_setSlot s i { s.slot i with state := .retiring, disarmMark := true, held := some h }
      { s.slot i with state := .held }
    exact (congrArg State.slots htwice :)
  · simp [withResult, retired, State.withQueue, storedAtTail, hr]

/-- A POP after a cancel on a full queue leaves what the cancel leaves after the POP (R125). -/
theorem State.popReport_cancelledRecord (hfull : s.report.queue.length = 16) (result value : Byte) :
    (withResult (cancelledRecord s i) result value).popReport =
      withResult (cancelledRecord (s.withQueue rest) i) result value := by
  have hroom : rest.length < 16 := by
    rw [hq, List.length_cons] at hfull
    omega
  by_cases hnone : (s.slot i).prog.report = .none
  · rw [cancelledRecord_of_unreported hnone, cancelledRecord_of_unreported (s := s.withQueue rest) hnone]
    exact State.popReport_of_none_retiring hq hr
  · rw [cancelledRecord_of_full hnone hfull, cancelledRecord_of_room (s := s.withQueue rest) hnone hroom,
      State.popReport_of_retired hq hr hd hh]
    rfl

end

end

/-- The run of a slot that a cancel takes, ended: its entry and its claim are out and its pending mark is clear (R18). -/
def runEnded (s : State) (i : SlotId) : State :=
  (if (s.slot i).state = .bound then s else runAbandoned s i).setSlot i { s.slot i with pendingMark := false }

section
variable (s : State) (i : SlotId)

@[simp] theorem runEnded_slot_self : (runEnded s i).slot i = { s.slot i with pendingMark := false } := State.slot_setSlot_self _ i _

@[simp] theorem runEnded_inReset : (runEnded s i).inReset = s.inReset := by
  unfold runEnded
  split <;> simp

@[simp] theorem runEnded_report : (runEnded s i).report = s.report := by
  unfold runEnded runAbandoned
  dsimp only
  split
  · rfl
  · split <;> rfl

/-- The end of a run does not ask what the report queue holds. -/
theorem runEnded_withQueue (queue : List Record) : runEnded (s.withQueue queue) i = (runEnded s i).withQueue queue := by
  have hslot : (s.withQueue queue).slot i = s.slot i := rfl
  unfold runEnded runAbandoned
  rw [hslot]
  dsimp only
  split
  · rfl
  · split <;> rfl

@[simp] theorem withResult_inReset (result value : Byte) : (withResult s result value).inReset = s.inReset := rfl

@[simp] theorem cancelledRecord_inReset : (cancelledRecord s i).inReset = s.inReset := by
  unfold cancelledRecord
  dsimp only
  split
  · rfl
  · split <;> rfl

end

/-- CANCEL of an active slot that is not an INPUT slot: its run ends, and the CANCELLED record follows (R18). -/
theorem exec_cancel_of_notInput {s : State} {i : SlotId} (h : TakesCommands s) (ha : ArgIs s i)
    (hs : (s.slot i).state = .bound ∨ (s.slot i).state = .waiting ∨ (s.slot i).state = .driving)
    (hlaunch : (s.slot i).prog.launch ≠ .input) :
    exec .cancel s = .next (withResult (cancelledRecord (runEnded s i) i) 0x00 0) :=
  cancelEndsActivity s i h ha hs hlaunch

/-- Settles O42: the POP commutes with the end of the run and with the record that follows it. -/
theorem popAndCancelInEitherOrder : Obligations.PopAndCancelInEitherOrder := by
  intro s i value a b c d hs ha hactive hlaunch hfull hr hd hh hpop₁ hcancel₁ hcancel₂ hpop₂
  obtain ⟨head, rest, hq⟩ : ∃ head rest, s.report.queue = head :: rest := List.exists_cons_of_length_pos (by omega)
  rw [exec_pop hs.1, State.popReport_of_none_retiring hq hr] at hpop₁
  cases hpop₁
  rw [exec_cancel_of_notInput (s := s.withQueue rest) hs ha hactive hlaunch, runEnded_withQueue] at hcancel₁
  cases hcancel₁
  rw [exec_cancel_of_notInput hs ha hactive hlaunch] at hcancel₂
  cases hcancel₂
  have hon : (withResult (cancelledRecord (runEnded s i) i) 0x00 0).inReset = false := by simp [hs.1]
  rw [exec_pop hon, State.popReport_cancelledRecord (s := runEnded s i) (by simpa using hq) (by simpa using hr)
    (by simpa using hd) (by simpa using hh) (by simpa using hfull)] at hpop₂
  cases hpop₂
  rfl

end Sys2Proof.Machine
end

section
/-! FLUSH (R127): the retiring slots that it releases one after another, and what is left when the last one is. -/

namespace Sys2Proof.Machine

/-! ### What still waits after a release (log entry 30) -/

/-- Reached times lie at or behind NOW on the line that R43 reads off the circle. -/
theorem reached_iff_earliness_nonpos (now d : Tick) : reached d now = true ↔ earliness now d ≤ 0 := by
  unfold earliness
  split
  next h => simp [h]
  next h =>
    have hahead : 0 < distance now d := by
      rw [reached_iff] at h
      rw [distance_eq] at h ⊢
      omega
    simp [h]
    omega

/-- An insertion leaves a reached entry at the head of the due list: the new one stands there only if it is due earlier (R44). -/
theorem any_head_reached_dueInsert {now : Tick} (e : Entry) {l : List Entry} (h : l.head?.any (fun x => reached x.due now) = true) :
    (dueInsert now e l).head?.any (fun x => reached x.due now) = true := by
  cases l with
  | nil => cases h
  | cons x xs =>
    unfold dueInsert
    split
    · exact h
    next hearlier =>
      replace h : reached x.due now = true := h
      show reached e.due now = true
      rw [reached_iff_earliness_nonpos] at h ⊢
      omega

/-- What waits goes on waiting where NOW and the deadlines stay and the due list keeps a reached head. -/
theorem followUpWaits_mono {s t : State} (hstate : t.time.state = s.time.state) (hnow : t.time.now = s.time.now) (hins : t.ins = s.ins)
    (hdue : s.due.head?.any (fun e => reached e.due s.time.now) = true → t.due.head?.any (fun e => reached e.due s.time.now) = true)
    (h : followUpWaits s = true) : followUpWaits t = true := by
  unfold followUpWaits at h ⊢
  simp only [hstate, hnow, State.inp_congr hins, Bool.and_eq_true, Bool.or_eq_true] at h ⊢
  exact ⟨h.1, h.2.imp_left hdue⟩

/-- An examination noted again after a release has come as far as it had before. -/
theorem examNoted_released_time (s : State) (i : SlotId) (h : HeldRecord) :
    (examNoted (released s i h)).time = (examNoted s).time := by
  have hins := released_ins s i h
  by_cases hruns : (s.slot i).RunsAgain
  · have htime : (released s i h).time = (examNoted s).time := by rw [released_time, if_pos hruns]
    have hwaits : followUpWaits s = true → followUpWaits (released s i h) = true := by
      refine followUpWaits_mono (by rw [htime]; rfl) (by rw [htime]; rfl) hins fun hhead => ?_
      rw [released_due, dueCompleted, if_pos hruns]
      exact any_head_reached_dueInsert _ hhead
    unfold examNoted at htime ⊢
    rw [htime]
    cases hw : followUpWaits s with
    | false => simp
    | true => simp [hwaits hw]
  · have htime : (released s i h).time = s.time := by rw [released_time, if_neg hruns]
    have hdue : (released s i h).due = s.due := by rw [released_due, dueCompleted, if_neg hruns]
    simp [examNoted, followUpWaits, htime, hdue, State.inp_congr hins]

/-! ### Releases in the order of the retire list (R127) -/

/-- The oldest slot leaves the retire list. -/
theorem released_retire {s : State} {i : SlotId} {others : List SlotId} (hretire : s.report.retire = i :: others)
    (hnodup : s.report.retire.Nodup) (h : HeldRecord) : (released s i h).report.retire = others := by
  rw [hretire, List.nodup_cons] at hnodup
  obtain ⟨hnew, -⟩ := hnodup
  rw [released_report, hretire, List.filter_cons_of_neg (by simp), List.filter_eq_self.2]
  exact fun j hj => by simpa using fun e : j = i => hnew (e ▸ hj)

/-- The second state is the first with the retiring slots of a list, the oldest first, released one after another. -/
structure Releases (l : List SlotId) (s t : State) : Prop where
  frame : t = { s with slots := t.slots, due := t.due, time := t.time, report := t.report }
  report : t.report = { s.report with
    queue := s.report.queue ++ l.filterMap fun i => (s.slot i).held.map fun h => storedFinal h i
    retire := t.report.retire }
  retire : s.report.retire = l ++ t.report.retire
  slot_of_mem : ∀ i ∈ l, t.slot i = (s.slot i).completed s.time.now
  slot_of_not_mem : ∀ i, i ∉ l → t.slot i = s.slot i
  due : t.due = l.foldl (fun due i => dueCompleted s.time.now (s.slot i) i due) s.due
  time : t.time = if ∃ i ∈ l, (s.slot i).RunsAgain then (examNoted s).time else s.time

theorem Releases.nil (s : State) : Releases [] s s :=
  ⟨rfl, by simp, rfl, nofun, fun _ _ => rfl, rfl, by simp⟩

/-- The oldest slot is released, then the others. -/
theorem Releases.cons {s t : State} {i : SlotId} {l others : List SlotId} {h : HeldRecord} (hh : (s.slot i).held = some h)
    (hretire : s.report.retire = i :: others) (hnodup : s.report.retire.Nodup) (hsub : l ⊆ others) (hgap : s.report.gap = false)
    (hl : Releases l (released s i h) t) : Releases (i :: l) s t := by
  have hothers := released_retire hretire hnodup h
  rw [hretire, List.nodup_cons] at hnodup
  have hne : ∀ j ∈ l, j ≠ i := fun j hj e => hnodup.1 (e ▸ hsub hj)
  have hslot : ∀ j, j ≠ i → (released s i h).slot j = s.slot j := fun j hj => by rw [released_slot, if_neg hj]
  refine ⟨?_, ?_, ?_, fun j hj => ?_, fun j hj => ?_, ?_, ?_⟩
  · rw [hl.frame, released_eq]
    rfl
  · have hheld : l.filterMap (fun j => ((released s i h).slot j).held.map fun r => storedFinal r j) =
        l.filterMap fun j => (s.slot j).held.map fun r => storedFinal r j :=
      List.filterMap_congr fun j hj => by rw [hslot j (hne j hj)]
    rw [hl.report, hheld, released_report]
    simp [storedAtTail, hgap, hh, storedFinal]
  · rw [hretire, ← hothers, hl.retire]
    rfl
  · by_cases hji : j = i
    · subst hji
      rw [hl.slot_of_not_mem j fun hm => hne j hm rfl, released_slot, if_pos rfl]
    · rw [hl.slot_of_mem j (List.mem_of_ne_of_mem hji hj), hslot j hji, released_now]
  · rw [List.mem_cons, not_or] at hj
    rw [hl.slot_of_not_mem j hj.2, hslot j hj.1]
  · rw [hl.due, released_due, released_now, List.foldl_cons]
    exact List.foldl_ext _ _ _ fun _ j hj => by rw [hslot j (hne j hj)]
  · have hruns : (∃ j ∈ l, ((released s i h).slot j).RunsAgain) ↔ ∃ j ∈ l, (s.slot j).RunsAgain :=
      exists_congr fun j => and_congr_right fun hj => by rw [hslot j (hne j hj)]
    rw [hl.time, examNoted_released_time, released_time]
    simp only [hruns, List.exists_mem_cons_iff]
    by_cases hi : (s.slot i).RunsAgain
    · simp only [if_pos hi, if_pos (Or.inl hi), ite_self]
    · simp only [if_neg hi, or_iff_right hi]

/-- The releases of a FLUSH end where the retire list or the room in the queue does (R127 step 3). -/
theorem releases_releaseInOrder (l : List SlotId) : ∀ s : State, s.report.retire = l → s.report.retire.Nodup →
    (∀ i ∈ l, (s.slot i).held.isSome = true) → s.report.gap = false →
    Releases (l.take (16 - s.report.queue.length)) s (s.releaseInOrder l) := by
  induction l with
  | nil =>
    intro s _ _ _ _
    rw [List.take_nil]
    exact Releases.nil s
  | cons i rest ih =>
    intro s hretire hnodup hheld hgap
    unfold State.releaseInOrder
    split
    next hfull =>
      rw [ReportUnit.full_iff] at hfull
      rw [Nat.sub_eq_zero_of_le hfull]
      exact Releases.nil s
    next hroom =>
      replace hroom : s.report.queue.length < 16 := (ReportUnit.full_eq_false_iff _).1 (by simpa using hroom)
      obtain ⟨h, hh⟩ := Option.isSome_iff_exists.1 (hheld i List.mem_cons_self)
      have hothers := released_retire hretire hnodup h
      have hqueue : (released s i h).report.queue.length = s.report.queue.length + 1 := by
        simp [released_report, storedAtTail]
      have hgap' : (released s i h).report.gap = false := by rw [released_report]; rfl
      have htake : 16 - s.report.queue.length = (16 - (s.report.queue.length + 1)) + 1 := by omega
      rw [htake, List.take_succ_cons, State.releaseRetiring_eq s i h hh, ← hqueue]
      refine .cons hh hretire hnodup (List.take_subset _ _) hgap ?_
      rw [hretire, List.nodup_cons] at hnodup
      obtain ⟨hnew, hrest⟩ := hnodup
      refine ih _ hothers (hothers ▸ hrest) (fun j hj => ?_) hgap'
      have hne : j ≠ i := fun e => hnew (e ▸ hj)
      rw [released_slot, if_neg hne]
      exact hheld j (List.mem_cons_of_mem i hj)

theorem exec_flush {s : State} (h : TakesCommands s) : exec .flush s = .next (withResult s.flushReports.state 0x00 0) :=
  congrArg Host.Outcome.next (State.whenOn_commandWrite h 0x0C)

/-- Settles O41: FLUSH releases the retire list from an empty queue. -/
theorem flushReleasesInOrder : Obligations.FlushReleasesInOrder := by
  intro s hs hlaw hheld
  obtain ⟨-, -, hnodup, hretiring⟩ := hlaw
  have hreleases : Releases (s.report.retire.take 16) s.emptyQueue s.flushReports.state :=
    releases_releaseInOrder s.report.retire s.emptyQueue rfl hnodup
      (fun i hi => (hheld i).2 ((hretiring i).1 hi)) rfl
  refine ⟨_, exec_flush hs, ?_⟩
  generalize s.flushReports.state = t at hreleases
  obtain ⟨hframe, hreport, hretire, hmem, hnotMem, hdue, htime⟩ := hreleases
  refine ⟨?_, ?_, ?_, fun i hi x hx => ?_, hnotMem, hdue, htime, ?_, ?_, ?_, ?_, ?_, ?_⟩
  · show { t.cmd with result := 0, value := 0 } = _
    rw [hframe]
    rfl
  · rw [hframe]
    rfl
  · have hrest : t.report.retire = s.report.retire.drop 16 :=
      List.append_cancel_left (hretire.symm.trans (List.take_append_drop 16 s.report.retire).symm)
    refine hreport.trans ?_
    rw [hrest]
    rfl
  · subst hx
    exact hmem i hi
  all_goals
    rw [hframe]
    rfl

end Sys2Proof.Machine
end

section
/-! Bus writes and the rows they are (spec/09 section 9.2), and the command protocol: the refusal while BUSY and the checks of a COMMAND
write (spec/08). -/

namespace Sys2Proof

/-! ### Rows of bus writes -/

/-- A code of COMMAND is the operand of its own row (R138, R141, R142, R143). -/
theorem rowOfCommandCode_spec : ∀ code : Byte,
    (rowOfCommandCode code).wellFormed = true ∧ (rowOfCommandCode code).busWriteOf = some (0x04, code) := by
  decide

/-- What makes a REGISTER_WRITE well formed: an address that no row takes, and of CONTROL a byte with bit 0 clear. -/
theorem isOtherWrite_of_address {address : BitVec 5} (h : hasRowOfItsOwn address = false) {value : Byte}
    (hcontrol : address = 0x01#5 → value.getLsbD 0 = false) : isOtherWrite address value = true := by
  unfold isOtherWrite
  by_cases ha : address = 0x01#5
  · rw [h, hcontrol ha, Bool.and_false]
    rfl
  · rw [h, beq_false_of_ne ha]
    rfl

/-- The row of a bus write is well formed and stands for that write, address by address (section 9.2). -/
theorem rowOfBusWrite_spec (address : BitVec 5) (value : Byte) :
    (rowOfBusWrite address value).wellFormed = true ∧ (rowOfBusWrite address value).busWriteOf = some (address, value) := by
  unfold rowOfBusWrite
  split
  case h_1 haddress =>
    obtain rfl : address = 0x01 := BitVec.eq_of_toNat_eq haddress
    split
    next hbit => exact ⟨hbit, rfl⟩
    next hbit => exact ⟨isOtherWrite_of_address rfl fun _ => by simpa using hbit, rfl⟩
  case h_4 haddress =>
    obtain rfl : address = 0x04 := BitVec.eq_of_toNat_eq haddress
    exact rowOfCommandCode_spec value
  case h_14 =>
    refine ⟨isOtherWrite_of_address ?_ fun h => absurd (congrArg BitVec.toNat h) ‹address.toNat = 1 → False›, rfl⟩
    simp_all [hasRowOfItsOwn]
  all_goals
    next haddress => exact ⟨rfl, congrArg (fun a => some (a, value)) (BitVec.eq_of_toNat_eq haddress.symm)⟩

/-- Only a bus write can have an operand that belongs to another row. -/
theorem Instr.wellFormed_of_no_busWrite {c : Instr} (h : c.busWriteOf = none) : c.wellFormed = true := by
  cases c with
  | badCommand | softReset | registerWrite => cases h
  | _ => rfl

namespace Machine

/-- A row that stands for a bus write acts as the write to that register (section 9.2; log entry 16). -/
theorem exec_of_busWrite {c : Instr} {address : BitVec 5} {value : Byte} (h : c.busWriteOf = some (address, value)) (s : State) :
    exec c s = exec (.registerWrite address value) s := by
  cases c with
  | lineRestWrite bank | lineEnWrite bank | lineOdWrite bank => cases bank <;> cases h <;> rfl
  | hardwareReset | resetRelease | dataRead | now0Read | advance | readyEvent | rawChange | qualificationComplete | startExpiry
  | endExpiry | inputLaunch | visit => cases h
  | _ => cases h; rfl

/-- Settles O3, by the address of the write, and by the row that stands for it. -/
theorem busWritesAreRows : Obligations.BusWritesAreRows :=
  ⟨rowOfBusWrite_spec, fun _ _ _ s h => exec_of_busWrite h s⟩

/-- Every command acts as a well-formed one. -/
theorem exists_wellFormed_exec_eq (c : Instr) : ∃ row : Instr, row.wellFormed = true ∧ ∀ s, exec c s = exec row s := by
  cases hwrite : c.busWriteOf with
  | none => exact ⟨c, Instr.wellFormed_of_no_busWrite hwrite, fun _ => rfl⟩
  | some write =>
    obtain ⟨hwf, hrow⟩ := rowOfBusWrite_spec write.1 write.2
    exact ⟨_, hwf, fun s => (exec_of_busWrite hwrite s).trans (exec_of_busWrite hrow s).symm⟩

/-! ### COMMAND writes (R138, R139) -/

/-- Settles O8: the row acts as a write to COMMAND, which the busy command unit refuses. -/
theorem commandWhileBusyIsRefused : Obligations.CommandWhileBusyIsRefused := by
  intro c code s hwrite hon hbusy
  rw [exec_of_busWrite hwrite]
  refine congrArg Host.Outcome.next ((State.whenOn_of_on hon _).trans ?_)
  exact State.commandWrite_of_busy hbusy code

section
variable {s : State}

theorem State.takeCommand_of_no_command {code : Byte} (h : code.toNat = 0 ∨ 0x0D ≤ code.toNat) :
    s.takeCommand code = withResult s 0x07 0 := by
  unfold State.takeCommand
  split
  case h_13 => rfl
  all_goals omega

theorem exec_badCommand (h : TakesCommands s) (code : Byte) : exec (.badCommand code) s = .next (s.takeCommand code) :=
  congrArg Host.Outcome.next (State.whenOn_commandWrite h code)

/-- A slot command whose argument names no slot reaches no slot (R138). -/
theorem exec_slotCommand_of_large (h : TakesCommands s) (hlarge : 0x20 ≤ s.cmd.arg.toNat) :
    ∀ c ∈ [Instr.arm, .launch, .cancel, .release], exec c s = .next (withResult s 0x02 0) := by
  have hbad {code : Byte} (effect : State → SlotId → Answer) (htaken : s.takeCommand code = s.slotCommand effect) :
      (Host.Outcome.next (s.whenOn (State.commandWrite code)) : Host.Outcome State Fault Refusal) = .next (withResult s 0x02 0) := by
    rw [State.whenOn_commandWrite h, htaken, State.slotCommand_of_large hlarge]
  simp only [List.forall_mem_cons, List.not_mem_nil, false_imp_iff, implies_true, and_true]
  exact ⟨hbad State.armSlot rfl, hbad State.launchSlot rfl, hbad State.cancelSlot rfl, hbad State.releaseSlot rfl⟩

/-! ### The taking of a walk (R143) -/

theorem exec_launchGroup (h : TakesCommands s) : exec .launchGroup s = .next (s.startWalk .launchGroup) :=
  congrArg Host.Outcome.next (State.whenOn_commandWrite h 0x06)

theorem exec_cancelGroup (h : TakesCommands s) : exec .cancelGroup s = .next (s.startWalk .cancelGroup) :=
  congrArg Host.Outcome.next (State.whenOn_commandWrite h 0x07)

theorem State.startWalk_of_large (h : 0x08 ≤ s.cmd.arg.toNat) (w : WalkCommand) : s.startWalk w = withResult s 0x02 0 := by
  have hnone : s.cmd.groupArg = none := dif_neg (by omega)
  unfold State.startWalk
  rw [hnone]
  rfl

theorem CommandUnit.groupArg_of_arg {c : CommandUnit} {g : GroupId} (h : c.arg = BitVec.ofNat 8 g.val) : c.groupArg = some g := by
  have harg : c.arg.toNat = g.val := by
    rw [h, BitVec.toNat_ofNat]
    omega
  unfold CommandUnit.groupArg
  rw [dif_pos (harg ▸ g.isLt)]
  exact congrArg some (Fin.ext harg)

theorem State.startWalk_of_arg {g : GroupId} (h : s.cmd.arg = BitVec.ofNat 8 g.val) (w : WalkCommand) :
    s.startWalk w = { s with cmd := { s.cmd with
      busy := true, walkCommand := w, walkGroup := g, walkPos := 0, walkCount := 0,
      t0 := if w == .launchGroup then s.time.now else s.cmd.t0 } } := by
  unfold State.startWalk
  rw [CommandUnit.groupArg_of_arg h]

end

/-- Settles O9, by the code and by the range of the argument. -/
theorem codeAndArgumentChecks : Obligations.CodeAndArgumentChecks := by
  intro s hs
  refine ⟨fun code hcode => ?_, exec_slotCommand_of_large hs, fun hlarge => ?_⟩
  · rw [exec_badCommand hs, State.takeCommand_of_no_command hcode]
  · simp only [List.forall_mem_cons, List.not_mem_nil, false_imp_iff, implies_true, and_true]
    rw [exec_launchGroup hs, exec_cancelGroup hs, State.startWalk_of_large hlarge, State.startWalk_of_large hlarge]
    exact ⟨rfl, rfl⟩

/-- Settles O43. -/
theorem walkIsTaken : Obligations.WalkIsTaken := by
  intro s g hs harg
  rw [exec_launchGroup hs, exec_cancelGroup hs, State.startWalk_of_arg harg, State.startWalk_of_arg harg]
  exact ⟨rfl, rfl⟩

end Machine

end Sys2Proof
end

section
/-! VISIT (spec/08 section 8.4): what a walk does at a slot. A CANCEL_GROUP walk cancels as the CANCEL command does, because a cancel reads
and writes neither the items of the command unit nor the CMD flag. -/

namespace Sys2Proof.Machine

/-- The state with these items of the command unit and this CMD flag. -/
def State.withCmd (s : State) (c : CommandUnit) (flag : Bool) : State := { s with cmd := c, port.flags.cmd := flag }

section
variable (s : State) (i : SlotId) (n : InId) (c : CommandUnit) (flag : Bool)

/-! ### What the state with other command items keeps -/

@[simp] theorem State.withCmd_time : (s.withCmd c flag).time = s.time := rfl
@[simp] theorem State.withCmd_report : (s.withCmd c flag).report = s.report := rfl
@[simp] theorem State.withCmd_slot : (s.withCmd c flag).slot i = s.slot i := rfl
@[simp] theorem State.withCmd_out (m : OutId) : (s.withCmd c flag).out m = s.out m := rfl
@[simp] theorem State.withCmd_inp : (s.withCmd c flag).inp n = s.inp n := rfl
@[simp] theorem State.withCmd_pin : (s.withCmd c flag).pin n = s.pin n := rfl

/-! ### Operations that a cancel uses -/

@[simp] theorem State.setSlot_withCmd (x : Slot) : (s.withCmd c flag).setSlot i x = (s.setSlot i x).withCmd c flag := rfl
@[simp] theorem State.setInp_withCmd (l : InLine) : (s.withCmd c flag).setInp n l = (s.setInp n l).withCmd c flag := rfl

theorem State.wakeRequest_withCmd : (s.withCmd c flag).wakeRequest = s.wakeRequest.withCmd c flag := by
  unfold State.wakeRequest
  rw [State.withCmd_time]
  split <;> rfl

theorem State.giveRecord_withCmd (r : Record) : (s.withCmd c flag).giveRecord r = (s.giveRecord r).withCmd c flag := by
  unfold State.giveRecord
  rw [State.withCmd_report]
  split <;> rfl

theorem State.stopRun_withCmd : (s.withCmd c flag).stopRun i = (s.stopRun i).withCmd c flag := by
  unfold State.stopRun
  rw [State.withCmd_slot]
  split <;> rfl

theorem State.closeDelivery_withCmd : (s.withCmd c flag).closeDelivery n = (s.closeDelivery n).withCmd c flag := by
  unfold State.closeDelivery
  rw [State.withCmd_inp]
  split
  · rfl
  · rw [State.withCmd_time, State.giveRecord_withCmd]
    split <;> rfl

theorem State.takeEdge_withCmd : (s.withCmd c flag).takeEdge n = (s.takeEdge n).withCmd c flag := by
  unfold State.takeEdge
  rw [State.withCmd_inp, State.wakeRequest_withCmd]
  dsimp only
  split <;> rfl

theorem State.qualifiedChange_withCmd : (s.withCmd c flag).qualifiedChange n = (s.qualifiedChange n).withCmd c flag := by
  unfold State.qualifiedChange
  rw [State.withCmd_inp, State.takeEdge_withCmd]
  dsimp only
  rw [State.withCmd_inp, State.closeDelivery_withCmd]
  split
  · split <;> rfl
  · rfl

theorem State.takeRawChange_withCmd : (s.withCmd c flag).takeRawChange n = (s.takeRawChange n).withCmd c flag := by
  unfold State.takeRawChange
  simp only [State.withCmd_inp, State.withCmd_pin, State.withCmd_time, State.setInp_withCmd, State.qualifiedChange_withCmd]
  repeat' split
  all_goals rfl

theorem State.comparePin_withCmd : (s.withCmd c flag).comparePin n = (s.comparePin n).withCmd c flag := by
  unfold State.comparePin State.rawChangeDue
  rw [State.withCmd_inp, State.withCmd_pin, State.takeRawChange_withCmd]
  split <;> rfl

theorem State.completeIfEmpty_withCmd : (s.withCmd c flag).completeIfEmpty n = (s.completeIfEmpty n).withCmd c flag := by
  unfold State.completeIfEmpty
  rw [State.withCmd_inp, State.closeDelivery_withCmd, State.comparePin_withCmd]
  split <;> rfl

theorem State.unbind_withCmd : (s.withCmd c flag).unbind i = (s.unbind i).withCmd c flag := by
  unfold State.unbind State.leaveBinding
  simp only [State.withCmd_slot, State.withCmd_inp, State.setInp_withCmd, State.completeIfEmpty_withCmd]
  split <;> rfl

theorem cancelledRecord_withCmd : cancelledRecord (s.withCmd c flag) i = (cancelledRecord s i).withCmd c flag := by
  unfold cancelledRecord
  dsimp only
  rw [State.withCmd_slot, State.withCmd_report]
  split
  · rfl
  · split <;> rfl

/-! ### The cancel itself (R18, R19) -/

theorem State.cancelActive_withCmd : (s.withCmd c flag).cancelActive i = (s.cancelActive i).withCmd c flag := by
  have hstopped : (if (s.slot i).state = .bound then s.withCmd c flag else runAbandoned (s.withCmd c flag) i) =
      (if (s.slot i).state = .bound then s else runAbandoned s i).withCmd c flag := by
    rw [← State.stopRun_eq, ← State.stopRun_eq, State.stopRun_withCmd]
    split <;> rfl
  rw [State.cancelActive_eq_unbind, State.cancelActive_eq_unbind, State.withCmd_slot, hstopped, State.setSlot_withCmd,
    State.unbind_withCmd, cancelledRecord_withCmd]

theorem State.cancelRetiring_withCmd : (s.withCmd c flag).cancelRetiring i = (s.cancelRetiring i).withCmd c flag := by
  unfold State.cancelRetiring
  simp only [State.withCmd_slot, State.setSlot_withCmd, State.unbind_withCmd]
  split <;> rfl

/-- A cancel has the same effect whatever the command unit holds (R18, R19). -/
theorem State.cancelSlot_withCmd : ((s.withCmd c flag).cancelSlot i).state = (s.cancelSlot i).state.withCmd c flag := by
  unfold State.cancelSlot State.cancel
  rw [State.withCmd_slot, State.cancelActive_withCmd, State.cancelRetiring_withCmd]
  generalize s.cancelActive i = active
  generalize s.cancelRetiring i = retiring
  cases (s.slot i).state <;> rfl

end

/-! ### VISIT (R144 to R146) -/

section
variable {s : State} {i : SlotId}

theorem exec_visit (h : s.inReset = false) : exec .visit s = .next s.takeVisit := congrArg Host.Outcome.next (State.whenOn_of_on h _)

theorem State.takeVisit_of_idle (h : s.cmd.busy = false) : s.takeVisit = s := dif_neg (by simp [h])

theorem State.takeVisit_at (hbusy : s.cmd.busy = true) (hpos : s.cmd.walkPos = i.val) :
    s.takeVisit = visited (if s.qualifies i then s.walkAct i else s) (s.qualifies i) := by
  have hlt : s.cmd.walkPos < 32 := hpos ▸ i.isLt
  obtain rfl : ⟨s.cmd.walkPos, hlt⟩ = i := Fin.ext hpos
  exact State.takeVisit_eq hbusy hlt

theorem State.qualifies_iff : s.qualifies i = true ↔ (s.slot i).armed = true ∧ (s.slot i).prog.group = s.cmd.walkGroup := by
  simp [State.qualifies]

theorem State.walkAct_of_launchGroup (h : s.cmd.walkCommand = .launchGroup) :
    s.walkAct i = launched (examNoted s) ⟨i, .group, BitVec.ofNat 8 s.cmd.walkGroup.val, s.cmd.t0⟩ := by
  unfold State.walkAct
  rw [h]
  dsimp only
  rw [State.launch_eq, State.noteExamination_eq]
  rfl

theorem State.walkAct_of_cancelGroup (h : s.cmd.walkCommand = .cancelGroup) : s.walkAct i = (s.cancelSlot i).state := by
  unfold State.walkAct State.cancelSlot
  rw [h]
  cases s.cancel i <;> rfl

/-- The CANCEL command on the slot, taken between two visits; with the command items and the CMD flag put back, its outcome is the
cancel alone (R146). -/
theorem exec_cancel_between_visits (h : s.inReset = false) (i : SlotId) :
    ∃ t, exec .cancel { s with cmd := { s.cmd with busy := false, arg := BitVec.ofNat 8 i.val } } = .next t ∧
      (s.cancelSlot i).state = t.withCmd s.cmd s.port.flags.cmd := by
  refine ⟨_, exec_cancel ⟨h, rfl⟩ rfl, ?_⟩
  exact State.cancelSlot_withCmd { s with cmd := { s.cmd with busy := false, arg := BitVec.ofNat 8 i.val } } i s.cmd s.port.flags.cmd

end

/-- Settles O44: by whether the slot qualifies, and by the walk command. -/
theorem visitByWalkCommand : Obligations.VisitByWalkCommand := by
  intro s i hon
  rw [exec_visit hon]
  refine ⟨fun hidle => ?_, fun hbusy hpos => ⟨fun hpassed => ?_, fun harmed hgroup => ⟨fun hwalk => ?_, fun hwalk => ?_⟩⟩⟩
  · rw [State.takeVisit_of_idle hidle]
  · have hqualifies : s.qualifies i = false := by
      rw [Bool.eq_false_iff, ne_eq, State.qualifies_iff]
      rintro ⟨harmed, hgroup⟩
      rcases hpassed with hunarmed | hother
      · simp [harmed] at hunarmed
      · exact hother hgroup
    rw [State.takeVisit_at hbusy hpos, hqualifies]
    rfl
  · rw [State.takeVisit_at hbusy hpos, State.qualifies_iff.2 ⟨harmed, hgroup⟩, State.walkAct_of_launchGroup hwalk]
    rfl
  · obtain ⟨t, ht, hcancel⟩ := exec_cancel_between_visits hon i
    refine ⟨t, ht, ?_⟩
    rw [State.takeVisit_at hbusy hpos, State.qualifies_iff.2 ⟨harmed, hgroup⟩, State.walkAct_of_cancelGroup hwalk, hcancel]
    rfl

end Sys2Proof.Machine
end

section
/-! No command arms a slot while a walk is in progress (R147): the commands that could are refused, and the events of the part find
armed the slots that they leave armed. -/

namespace Sys2Proof.Machine

/-- A slot that is armed in the second state was armed in the first. -/
def ArmsNone (s t : State) : Prop := ∀ i : SlotId, (t.slot i).armed = true → (s.slot i).armed = true

section
variable {s t u : State} {i : SlotId}

theorem ArmsNone.refl (s : State) : ArmsNone s s := fun _ => id

theorem ArmsNone.trans (h₁ : ArmsNone s t) (h₂ : ArmsNone t u) : ArmsNone s u := fun j hj => h₁ j (h₂ j hj)

theorem ArmsNone.of_slots (h : t.slots = s.slots) : ArmsNone s t := fun j hj => State.slot_congr h j ▸ hj

theorem KeepsRuns.armsNone (h : KeepsRuns s t) : ArmsNone s t := fun j hj => h.slot j ▸ hj

/-- An event that is taken or not. -/
theorem ArmsNone.ite (p : Prop) [Decidable p] (h : ArmsNone s t) : ArmsNone s (if p then t else s) := by
  split
  · exact h
  · exact .refl s

theorem ArmsNone.whenOn {event : State → State} (h : ArmsNone s (event s)) : ArmsNone s (s.whenOn event) := by
  unfold State.whenOn
  split
  · exact .refl s
  · exact h

/-- One slot is written: it must have been armed, or not be so now. -/
theorem ArmsNone.setSlot (h : ArmsNone s t) {x : Slot} (hx : x.armed = true → (t.slot i).armed = true) :
    ArmsNone s (t.setSlot i x) := by
  refine h.trans fun j hj => ?_
  rw [State.slot_setSlot] at hj
  split at hj
  next hji => exact hji ▸ hx hj
  · exact hj

theorem armsNone_setSlot_of_unarmed (s : State) (i : SlotId) {x : Slot} (hx : x.armed = false) : ArmsNone s (s.setSlot i x) :=
  (ArmsNone.refl s).setSlot fun h => absurd h (Bool.eq_false_iff.1 hx)

/-! ### Launches (R69 to R76) -/

theorem armsNone_giveRecord (s : State) (r : Record) : ArmsNone s (s.giveRecord r) :=
  (keepsPlaces_giveRecord .nothing s r).armsNone

/-- A run begins at a slot that is armed already (R70). -/
theorem armsNone_beginRun (h : (s.slot i).armed = true) (time : Tick) (chain : Bool) : ArmsNone s (s.beginRun i time chain) :=
  ((ArmsNone.refl s).setSlot fun _ => h).trans (.of_slots rfl)

theorem armsNone_markPending (s : State) (i : SlotId) : ArmsNone s (s.markPending i) := (ArmsNone.refl s).setSlot id

theorem armsNone_ignoreLaunch (s : State) (l : Launch) : ArmsNone s (s.ignoreLaunch l) := .ite _ (armsNone_giveRecord s _)

theorem armsNone_launchRunning {l : Launch} (h : (s.slot l.target).armed = true) : ArmsNone s (s.launchRunning l).1 := by
  have hstop : ArmsNone s (s.stopRun l.target) := fun j hj => by rwa [State.stopRun_slot] at hj
  unfold State.launchRunning
  split
  · exact hstop.trans (armsNone_beginRun (by rwa [State.stopRun_slot]) _ _)
  · split
    · exact armsNone_ignoreLaunch s l
    · exact armsNone_markPending s _
  · exact armsNone_ignoreLaunch s l
  · exact armsNone_ignoreLaunch s l

theorem armsNone_launchRetiring (s : State) (l : Launch) : ArmsNone s (s.launchRetiring l).1 := by
  have hignored := armsNone_ignoreLaunch s l
  have hmarked := armsNone_markPending s l.target
  unfold State.launchRetiring
  split
  · exact .refl s
  · split
    · split
      · exact hignored
      · exact hmarked
    · split
      · exact hignored
      · exact hmarked
    · exact hignored
    · exact hignored

/-- A launch begins no run at a slot that is not armed (R69). -/
theorem armsNone_launch (s : State) (l : Launch) : ArmsNone s (s.launch l).1 := by
  unfold State.launch
  split
  · exact .refl s
  · exact .refl s
  next hs => exact armsNone_beginRun (Slot.armed_of_active (.inl hs)) _ _
  next hs => exact armsNone_launchRunning (Slot.armed_of_active (.inr (.inl hs)))
  next hs => exact armsNone_launchRunning (Slot.armed_of_active (.inr (.inr hs)))
  · exact armsNone_launchRetiring s l

theorem armsNone_noted_launch (s : State) (l : Launch) : ArmsNone s (s.noteExamination.launch l).1 :=
  (ArmsNone.of_slots rfl).trans (armsNone_launch _ l)

theorem armsNone_chainLaunch (s : State) (source target : SlotId) : ArmsNone s (s.chainLaunch source target) := by
  unfold State.chainLaunch
  dsimp only
  have hlaunch := armsNone_launch s ⟨target, .chain, slotByte source, s.time.now⟩
  split
  · exact hlaunch.trans (armsNone_giveRecord _ _)
  · exact hlaunch

/-! ### An armed slot settles, finishes or goes on (R20, R21, R50 to R59) -/

theorem armsNone_settled (h : (s.slot i).armed = true) : ArmsNone s (settled s i) := by
  unfold settled
  dsimp only
  split
  · exact ((ArmsNone.refl s).setSlot fun _ => h).trans (.of_slots rfl)
  · exact (ArmsNone.refl s).setSlot fun _ => h

theorem armsNone_finished (h : (s.slot i).armed = true) (late : Half) : ArmsNone s (finished s i late) := by
  unfold finished
  dsimp only
  split
  · exact armsNone_settled h
  · split
    · refine (ArmsNone.of_slots rfl).trans (armsNone_settled ?_)
      exact h
    · exact ((ArmsNone.refl s).setSlot fun _ => h).trans (.of_slots rfl)

theorem armsNone_finish (h : (s.slot i).armed = true) (late : Half) : ArmsNone s (s.finish i late) := by
  rw [State.finish_eq]
  unfold finishedAndChained
  split
  · rw [← State.chainLaunch_eq]
    exact (armsNone_finished h late).trans (armsNone_chainLaunch _ _ _)
  · exact armsNone_finished h late

theorem armsNone_decideCourse (h : (s.slot i).armed = true) (late : Half) : ArmsNone s (s.decideCourse i late) := by
  unfold State.decideCourse
  split
  · exact ((ArmsNone.refl s).setSlot fun _ => h).trans (.of_slots rfl)
  · exact armsNone_finish h late

theorem armsNone_endOccurrence (h : (s.slot i).armed = true) (kind : RecordKind) (late : Half) :
    ArmsNone s (s.endOccurrence i kind late) := by
  unfold State.endOccurrence
  dsimp only
  generalize hu : s.setSlot i { s.slot i with occurrences := (s.slot i).occurrences + 1 } = u
  have hcounted : ArmsNone s u := hu ▸ (ArmsNone.refl s).setSlot fun _ => h
  have harmed : (u.slot i).armed = true := by
    rw [← hu, State.slot_setSlot_self]
    exact h
  split
  · refine (hcounted.trans (armsNone_giveRecord _ _)).trans (armsNone_decideCourse ?_ late)
    rwa [State.giveRecord_eq, recorded_slot]
  · exact hcounted.trans (armsNone_decideCourse harmed late)

theorem armsNone_occurrence (h : (s.slot i).armed = true) (late : Half) : ArmsNone s (s.occurrence i late) := by
  have hpulse : ArmsNone s (s.pulseStart i late) := by
    unfold State.pulseStart
    dsimp only
    split
    · exact armsNone_endOccurrence h _ late
    · split
      · exact armsNone_endOccurrence h _ late
      · refine (ArmsNone.setSlot ?_ fun _ => ?_).trans (.of_slots rfl)
        · exact .of_slots (State.setOut_slots s _ _)
        · rwa [State.slot_setOut]
  unfold State.occurrence
  dsimp only
  split
  · exact armsNone_endOccurrence h _ late
  · exact armsNone_endOccurrence h _ late
  · refine (ArmsNone.of_slots (State.setOut_slots s _ _)).trans (armsNone_endOccurrence ?_ _ late)
    rwa [State.slot_setOut]
  · exact hpulse

theorem armsNone_startExpiry (h : (s.slot i).armed = true) (due : Tick) : ArmsNone s (s.startExpiry i due) := by
  rw [State.startExpiry_eq]
  have hbegun : ArmsNone s (expiryBegun s i due) :=
    ((ArmsNone.refl s).setSlot fun _ => h).trans (.ite _ (.of_slots (woken_slots _)))
  refine hbegun.trans (armsNone_occurrence ?_ _)
  rw [expiryBegun_slot]
  exact h

theorem armsNone_endExpiry (h : (s.slot i).armed = true) (due : Tick) : ArmsNone s (s.endExpiry i due) := by
  refine (ArmsNone.of_slots rfl).trans (armsNone_endOccurrence (s := s.removeClaim i) ?_ _ _)
  exact h

/-- The slot of an entry that an examination hands over is in a run (R41). -/
theorem armsNone_expire (h : Consistent s) (p : Purpose) {event : State → SlotId → Tick → State}
    (hevent : ∀ (u : State) (i : SlotId), (u.slot i).armed = true → ∀ due : Tick, ArmsNone u (event u i due)) :
    ArmsNone s (s.expire p event) := by
  unfold State.expire
  split
  next e he =>
    obtain ⟨rest, hdue⟩ := State.dueHead_eq_some he
    have hstate := h.state_of_mem_due (hdue ▸ List.mem_cons_self)
    have harmed : (s.slot e.slot).armed = true := by
      refine Slot.armed_of_active (.inr ?_)
      split at hstate
      · exact .inl hstate
      · exact .inr hstate
    refine .ite _ ((ArmsNone.of_slots rfl).trans (hevent _ _ ?_ _))
    exact harmed
  · exact .refl s

/-! ### Releases of retiring slots (R21, R124) -/

/-- A retire completion leaves a slot armed only without the disarm mark, with which the retiring slot is not armed (R10, R21). -/
theorem Slot.armed_of_completed {x : Slot} (hs : x.state = .retiring) {now : Tick} (h : (x.completed now).armed = true) :
    x.armed = true := by
  unfold Slot.completed at h
  cases hd : x.disarmMark with
  | true => simp [hd, Slot.armed] at h
  | false => simp [Slot.armed, hs, hd]

theorem armsNone_popReport (h : Consistent s) : ArmsNone s s.popReport := by
  cases hq : s.report.queue with
  | nil =>
    rw [State.popReport_of_empty hq]
    exact .refl s
  | cons head rest =>
    cases hr : s.report.retire with
    | nil =>
      rw [State.popReport_of_none_retiring hq hr]
      exact .of_slots rfl
    | cons i others =>
      obtain ⟨-, -, -, hretiring⟩ := h.reports
      have hs : (s.slot i).state = .retiring := (hretiring i).1 (hr ▸ List.mem_cons_self)
      obtain ⟨-, hheld, -⟩ := (h.slots i).of_retiring hs
      obtain ⟨held, hheld⟩ := Option.isSome_iff_exists.1 hheld
      rw [State.popReport_of_retiring hq hr hheld, released_eq]
      exact ((ArmsNone.of_slots rfl).setSlot (Slot.armed_of_completed hs)).trans (.of_slots rfl)

/-! ### Input launches and cancels (R18, R19, R106) -/

theorem armsNone_completeIfEmpty (s : State) (n : InId) : ArmsNone s (s.completeIfEmpty n) :=
  (keepsPlaces_completeIfEmpty s n).armsNone

theorem armsNone_deliverNext (s : State) (n : InId) : ArmsNone s (s.deliverNext n) := by
  unfold State.deliverNext
  split
  · exact .refl s
  · split
    · exact armsNone_completeIfEmpty s n
    · refine ((ArmsNone.of_slots ?_).trans (armsNone_noted_launch _ _)).trans (armsNone_completeIfEmpty _ n)
      exact State.setInp_slots s n _

theorem armsNone_unbind (s : State) (i : SlotId) : ArmsNone s (s.unbind i) :=
  .ite _ ((ArmsNone.of_slots (State.setInp_slots s _ _)).trans (armsNone_completeIfEmpty _ _))

/-- A cancelled slot is HELD, or RETIRING with the disarm mark (R18 steps 4 and 5). -/
theorem armsNone_cancelledRecord (s : State) (i : SlotId) : ArmsNone s (cancelledRecord s i) := by
  have hheld : ArmsNone s (s.setSlot i { s.slot i with state := .held }) := armsNone_setSlot_of_unarmed s i rfl
  have hretired (record : HeldRecord) :
      ArmsNone s (s.setSlot i { s.slot i with state := .retiring, disarmMark := true, held := some record }) :=
    armsNone_setSlot_of_unarmed s i rfl
  unfold cancelledRecord
  dsimp only
  split
  · exact hheld
  · split
    · exact hheld.trans (.of_slots rfl)
    · exact (hretired _).trans (.of_slots rfl)

theorem armsNone_cancelActive (s : State) (i : SlotId) : ArmsNone s (s.cancelActive i) := by
  rw [State.cancelActive_eq_unbind]
  refine .trans (.trans (.setSlot ?_ ?_) (armsNone_unbind _ i)) (armsNone_cancelledRecord _ i)
  · split
    · exact .refl s
    · exact fun j hj => by rwa [runAbandoned_slot] at hj
  · split
    · exact id
    · rw [runAbandoned_slot]
      exact id

/-- The disarm mark arms no slot (R10). -/
theorem Slot.armed_of_marked {x : Slot} (h : { x with pendingMark := false, disarmMark := true }.armed = true) : x.armed = true := by
  unfold Slot.armed at h ⊢
  cases hs : x.state <;> simp_all

theorem armsNone_cancelRetiring (s : State) (i : SlotId) : ArmsNone s (s.cancelRetiring i) := by
  have hmarked : ArmsNone s (s.setSlot i { s.slot i with pendingMark := false, disarmMark := true }) :=
    (ArmsNone.refl s).setSlot Slot.armed_of_marked
  unfold State.cancelRetiring
  dsimp only
  split
  · exact hmarked
  · exact hmarked.trans (armsNone_unbind _ i)

theorem armsNone_cancel (ht : s.cancel i = some t) : ArmsNone s t := by
  unfold State.cancel at ht
  split at ht
  next => cases ht
  next => cases ht
  next => exact Option.some.inj ht ▸ armsNone_cancelActive s i
  next => exact Option.some.inj ht ▸ armsNone_cancelActive s i
  next => exact Option.some.inj ht ▸ armsNone_cancelActive s i
  next => exact Option.some.inj ht ▸ armsNone_cancelRetiring s i

/-! ### Visits (R144 to R146) -/

theorem armsNone_walkAct (s : State) (i : SlotId) : ArmsNone s (s.walkAct i) := by
  unfold State.walkAct
  split
  · exact armsNone_noted_launch s _
  · cases ht : s.cancel i with
    | none => exact .refl s
    | some t => exact armsNone_cancel ht
  · exact .refl s

theorem armsNone_takeVisit (s : State) : ArmsNone s s.takeVisit := by
  by_cases h : s.cmd.busy = true ∧ s.cmd.walkPos < 32
  · obtain ⟨hbusy, hpos⟩ := h
    rw [State.takeVisit_eq hbusy hpos]
    exact (ArmsNone.ite _ (armsNone_walkAct s _)).trans (.of_slots rfl)
  · have hstay : s.takeVisit = s := dif_neg h
    rw [hstay]
    exact .refl s

/-! ### Advances and register accesses -/

theorem armsNone_advanceDue (s : State) (size : Tick) : ArmsNone s (s.advanceDue size) := by
  unfold State.advanceDue
  split
  · exact .of_slots rfl
  · exact .of_slots rfl

theorem armsNone_advance (s : State) (source : AdvanceSource) : ArmsNone s (s.advance source) := by
  cases source with
  | clkinEdge =>
    refine .ite _ ?_
    split
    · exact (ArmsNone.of_slots rfl).trans (armsNone_advanceDue _ 1)
    · exact .of_slots rfl
  | prescaler => exact .ite _ ((ArmsNone.of_slots rfl).trans (armsNone_advanceDue _ 1))
  | slowPart => exact .ite _ (.of_slots rfl)
  | slowPeriod => exact .ite _ ((ArmsNone.of_slots rfl).trans (armsNone_advanceDue _ _))
  | held =>
    show ArmsNone s s.makeHeld
    unfold State.makeHeld
    split
    · exact .refl s
    · split
      · exact .refl s
      · exact .of_slots rfl

theorem State.writeSetup_slots {f : Nat} {b : Byte} (ht : s.writeSetup f b = some t) : t.slots = s.slots := by
  unfold State.writeSetup at ht
  split at ht
  case h_4 => exact Option.some.inj ht ▸ rfl
  case h_5 => cases ht
  all_goals
    split at ht
    · exact Option.some.inj ht ▸ rfl
    · cases ht

/-- A field write leaves its slot HELD (R12). -/
theorem armsNone_writeField {r : RecordRef} {f : Nat} {b : Byte} (ht : s.writeField r f b = some t) : ArmsNone s t := by
  unfold State.writeField at ht
  split at ht
  next i =>
    obtain ⟨x, hx, rfl⟩ := Option.map_eq_some_iff.1 ht
    exact armsNone_setSlot_of_unarmed s i (Slot.armed_of_unarmed (.inr (Slot.state_of_write hx)))
  next =>
    obtain ⟨l, -, rfl⟩ := Option.map_eq_some_iff.1 ht
    exact .of_slots rfl
  next => exact .of_slots (State.writeSetup_slots ht)
  next => cases ht
  next => cases ht

theorem armsNone_dataWrite (s : State) (b : Byte) : ArmsNone s (s.dataWrite b) := by
  unfold State.dataWrite
  dsimp only
  cases ht : (if s.fieldInRange then s.writeField s.selected s.port.fieldSel.toNat b else none) with
  | none => exact .of_slots rfl
  | some t =>
    split at ht
    · exact (armsNone_writeField ht).trans (.of_slots rfl)
    · cases ht

theorem armsNone_dataRead (s : State) : ArmsNone s s.dataRead := by
  have hsnapshot : ArmsNone s s.snapshotOnRead := by
    unfold State.snapshotOnRead
    split
    · exact .ite _ (.of_slots rfl)
    all_goals exact .refl s
  exact hsnapshot.trans (.of_slots rfl)

theorem armsNone_recSelWrite (s : State) (b : Byte) : ArmsNone s (s.recSelWrite b) := by
  unfold State.recSelWrite
  dsimp only
  split <;> exact .of_slots rfl

theorem armsNone_setOuts (s : State) (outs : Vector OutLine 16) : ArmsNone s { s with outs := outs } := .of_slots rfl

theorem armsNone_setBank (s : State) (bank : Bank) (b : Byte) (set : OutLine → Bool → OutLine) : ArmsNone s (s.setBank bank b set) :=
  armsNone_setOuts s _

/-- A REGISTER_WRITE of its own row moves no slot (R154). -/
theorem armsNone_registerWrite {address : BitVec 5} {b : Byte} (h : isOtherWrite address b = true) :
    ArmsNone s (s.registerWrite address b) := by
  rcases State.registerWrite_of_other (s := s) h with h | h | h | h <;> rw [h] <;> exact .of_slots rfl

/-- A reset leaves every slot FREE (R22, R23). -/
theorem armsNone_of_reset (s : State) (h : ∀ j : SlotId, t.slot j = {}) : ArmsNone s t := fun j hj => by
  rw [h j] at hj
  cases hj

theorem armsNone_controlWrite (s : State) (b : Byte) : ArmsNone s (s.controlWrite b) :=
  .ite _ (armsNone_of_reset s fun j => by simp [State.softReset, State.slot])

/-! ### Every command -/

/-- A command of its own row arms no slot of a consistent state mid-walk: the COMMAND writes are refused (R139), and of the events that
begin or go on with a run each finds its slot armed. -/
theorem exec_armsNone_of_wellFormed (h : Consistent s) (hbusy : s.cmd.busy = true) {c : Instr} (hwf : c.wellFormed = true) :
    ∃ t, exec c s = .next t ∧ ArmsNone s t := by
  have hcommand (code : Byte) : ArmsNone s (s.whenOn (State.commandWrite code)) := by
    refine .whenOn ?_
    rw [State.commandWrite_of_busy hbusy]
    exact .of_slots rfl
  cases c with
  | alloc | arm | launch | cancel | release | launchGroup | cancelGroup | start | stop | doze | wake | flush =>
    exact ⟨_, rfl, hcommand _⟩
  | badCommand code => exact ⟨_, rfl, hcommand code⟩
  | pop => exact ⟨_, rfl, .whenOn (armsNone_popReport h)⟩
  | softReset value => exact ⟨_, rfl, .whenOn (armsNone_controlWrite s value)⟩
  | hardwareReset => exact ⟨_, rfl, armsNone_of_reset s (State.resetWith_slot s.pins)⟩
  | resetRelease levels => exact ⟨_, rfl, armsNone_of_reset s (State.resetWith_slot (pinLevels levels))⟩
  | recSelWrite value => exact ⟨_, rfl, .whenOn (armsNone_recSelWrite s value)⟩
  | dataRead => exact ⟨_, rfl, .whenOn (armsNone_dataRead s)⟩
  | dataWrite value => exact ⟨_, rfl, .whenOn (armsNone_dataWrite s value)⟩
  | now0Read | irqFlagsWrite | irqEnableWrite => exact ⟨_, rfl, .whenOn (.of_slots rfl)⟩
  | lineRestWrite bank value => exact ⟨_, rfl, .whenOn (armsNone_setBank s bank value _)⟩
  | lineEnWrite bank value => exact ⟨_, rfl, .whenOn (armsNone_setBank s bank value _)⟩
  | lineOdWrite bank value => exact ⟨_, rfl, .whenOn (armsNone_setBank s bank value _)⟩
  | registerWrite => exact ⟨_, rfl, .whenOn (armsNone_registerWrite hwf)⟩
  | advance source => exact ⟨_, rfl, .whenOn (armsNone_advance s source)⟩
  | readyEvent => exact ⟨_, rfl, .whenOn (.ite _ (.of_slots rfl))⟩
  | rawChange line level => exact ⟨_, rfl, (keepsPlaces_pinChange s line level).armsNone⟩
  | qualificationComplete line => exact ⟨_, rfl, .whenOn (keepsPlaces_completeQualification s line).armsNone⟩
  | startExpiry => exact ⟨_, rfl, .whenOn (armsNone_expire h _ fun _ _ => armsNone_startExpiry)⟩
  | endExpiry => exact ⟨_, rfl, .whenOn (armsNone_expire h _ fun _ _ => armsNone_endExpiry)⟩
  | inputLaunch line => exact ⟨_, rfl, .whenOn (armsNone_deliverNext s line)⟩
  | visit => exact ⟨_, rfl, .whenOn (armsNone_takeVisit s)⟩

end

/-- Settles O45: the command acts as one of its own row, and none of those arms a slot. -/
theorem noSlotArmedDuringWalk : Obligations.NoSlotArmedDuringWalk := by
  intro c s t hs hbusy he
  obtain ⟨row, hwf, hrow⟩ := exists_wellFormed_exec_eq c
  obtain ⟨u, hu, harms⟩ := exec_armsNone_of_wellFormed hs hbusy hwf
  obtain rfl : u = t := Host.Outcome.next.inj (hu.symm.trans ((hrow s).symm.trans he))
  exact harms

end Sys2Proof.Machine
end

section
/-! The record window as it is read: REC_SEL and the snapshot that its write takes (R156, R161), a DATA read and a burst of them
(R158, R159), and what each field of each record shows (R94, R113, R38, R172). -/

namespace Sys2Proof.Machine

/-! ### NEXT DUE and the write of REC_SEL (R8, R156) -/

/-- The first entry of a slot is its entry (R41). -/
theorem dueEntry_append {before after : List Entry} {e : Entry} (hbefore : ∀ x ∈ before, x.slot ≠ e.slot) :
    dueEntry e.slot (before ++ e :: after) = some e := by
  have hnone : before.find? (fun x => x.slot == e.slot) = none := by simpa [List.find?_eq_none] using hbefore
  simp [dueEntry, List.find?_append, hnone]

/-- Bits 5 to 0 of a byte, as a number. -/
theorem bits_low6_toNat (b : Byte) : (bits b 0 6).toNat = b.toNat % 64 := by
  simp [bits, BitVec.extractLsb'_toNat]

theorem bits_low6_eq (b : Byte) : bits b 0 6 = BitVec.ofNat 6 (b.toNat % 64) :=
  BitVec.eq_of_toNat_eq (by rw [bits_low6_toNat, BitVec.toNat_ofNat]; omega)

/-- No record from 32 on is an action record (section 9.3). -/
theorem recordRef_ne_action {n : BitVec 6} (h : 32 ≤ n.toNat) (i : SlotId) : recordRef n ≠ .action i := by
  unfold recordRef
  rw [dif_neg (by omega)]
  repeat' split
  all_goals nofun

section
variable {s : State} {i : SlotId} {b : Byte}

theorem State.nextDue_of_running (h : (s.slot i).state = .waiting ∨ (s.slot i).state = .driving) :
    s.nextDue i = ((dueEntry i s.due).map Entry.due).getD 0 := by
  unfold State.nextDue
  rcases h with h | h <;> rw [h]

theorem State.nextDue_of_not_running (hw : (s.slot i).state ≠ .waiting) (hd : (s.slot i).state ≠ .driving) : s.nextDue i = 0 := by
  unfold State.nextDue
  split
  next h => exact absurd h hw
  next h => exact absurd h hd
  all_goals rfl

theorem State.recSelWrite_of_slot (h : b.toNat % 64 = i.val) :
    s.recSelWrite b = { s with port := { s.port with
      recSel := BitVec.ofNat 6 i.val, snapOcc := (s.slot i).occurrences, snapDue := s.nextDue i } } := by
  have hsel : recordRef (bits b 0 6) = .action i := recordRef_of_slot ((bits_low6_toNat b).trans h)
  have hbits := bits_low6_eq b
  rw [h] at hbits
  unfold State.recSelWrite State.selected
  rw [← hbits]
  dsimp only
  rw [hsel]
  rfl

theorem State.recSelWrite_of_no_slot (h : 32 ≤ b.toNat % 64) :
    s.recSelWrite b = { s with port := { s.port with recSel := BitVec.ofNat 6 (b.toNat % 64) } } := by
  have hsel := recordRef_ne_action (n := bits b 0 6) (by rwa [bits_low6_toNat])
  unfold State.recSelWrite State.selected
  rw [← bits_low6_eq]
  dsimp only
  split
  next i hi => exact absurd hi (hsel i)
  all_goals rfl

end

theorem exec_recSelWrite {s : State} (h : s.inReset = false) (b : Byte) : exec (.recSelWrite b) s = .next (s.recSelWrite b) :=
  congrArg Host.Outcome.next (State.whenOn_of_on h _)

/-- Settles O46: NEXT DUE by the state of the slot, the write by whether the number is a slot's. -/
theorem recSelWriteSelects : Obligations.RecSelWriteSelects := by
  intro b s hon
  refine ⟨fun i => ⟨fun hrun before e after hdue he hbefore => ?_, State.nextDue_of_not_running⟩, fun i hi => ?_, fun hlarge => ?_⟩
  · subst he
    rw [State.nextDue_of_running hrun, hdue, dueEntry_append hbefore]
    rfl
  · rw [exec_recSelWrite hon, State.recSelWrite_of_slot hi]
  · rw [exec_recSelWrite hon, State.recSelWrite_of_no_slot hlarge]

/-! ### A DATA read (R158, R159, R161) -/

theorem exec_dataRead {s : State} (h : s.inReset = false) : exec .dataRead s = .next s.dataRead :=
  congrArg Host.Outcome.next (State.whenOn_of_on h _)

theorem recordLength_le (n : Nat) : recordLength n ≤ 18 := by
  unfold recordLength
  repeat' split
  all_goals omega

section
variable {s : State}

/-- The read takes a snapshot on F0 of an action record alone (R161). -/
theorem State.snapshotOnRead_of_not_f0 (h : ¬ (s.port.recSel.toNat < 32 ∧ s.port.fieldSel.toNat = 0)) : s.snapshotOnRead = s := by
  unfold State.snapshotOnRead State.selected
  split
  next i hi =>
    by_cases hr : s.port.recSel.toNat < 32
    · exact if_neg fun hf => h ⟨hr, by simp [beq_iff_eq.1 hf]⟩
    · exact absurd hi (recordRef_ne_action (by omega) i)
  all_goals rfl

theorem State.snapshotOnRead_of_f0 {i : SlotId} (hr : s.port.recSel.toNat = i.val) (hf : s.port.fieldSel = 0) :
    s.snapshotOnRead = s.takeSnapshot i := by
  unfold State.snapshotOnRead State.selected
  rw [recordRef_of_slot hr]
  simp [hf]

theorem State.dataByte_of_in_range (h : s.port.fieldSel.toNat < recordLength s.port.recSel.toNat) :
    s.dataByte = s.readField (recordRef s.port.recSel) s.port.fieldSel.toNat := if_pos (s.fieldInRange_iff.2 h)

theorem State.dataByte_of_out_of_range (h : recordLength s.port.recSel.toNat ≤ s.port.fieldSel.toNat) : s.dataByte = 0xFF :=
  if_neg fun e => absurd (s.fieldInRange_iff.1 e) (by omega)

/-- A read that takes no snapshot (R158, R159). -/
theorem State.dataRead_of_not_f0 (h : ¬ (s.port.recSel.toNat < 32 ∧ s.port.fieldSel.toNat = 0)) :
    s.dataRead = { s with busData := s.dataByte, port := { s.port with fieldSel := s.nextFieldSel } } := by
  unfold State.dataRead
  rw [State.snapshotOnRead_of_not_f0 h]

/-- At or above the record's length no field is read (R159). -/
theorem State.dataRead_of_out_of_range (h : recordLength s.port.recSel.toNat ≤ s.port.fieldSel.toNat) :
    s.dataRead = { s with busData := 0xFF, port := { s.port with fieldSel := 0 } } := by
  have hf0 : ¬ (s.port.recSel.toNat < 32 ∧ s.port.fieldSel.toNat = 0) := by
    rintro ⟨hr, hf⟩
    have hlen : recordLength s.port.recSel.toNat = 18 := if_pos hr
    omega
  rw [State.dataRead_of_not_f0 hf0, State.dataByte_of_out_of_range h, State.nextFieldSel_eq, if_neg (by omega)]

/-- In range, FIELD_SEL moves one on, and from the last field back to 0 (R158). -/
theorem State.nextFieldSel_of_in_range (h : s.port.fieldSel.toNat < recordLength s.port.recSel.toNat) :
    s.nextFieldSel = if s.port.fieldSel.toNat + 1 = recordLength s.port.recSel.toNat then 0 else s.port.fieldSel + 1 := by
  rw [State.nextFieldSel_eq]
  by_cases hlast : s.port.fieldSel.toNat + 1 = recordLength s.port.recSel.toNat
  · rw [if_neg (by omega), if_pos hlast]
  · rw [if_pos (by omega), if_neg hlast]

/-- A read of F0 of an action record (R161). -/
theorem State.dataRead_of_f0 {i : SlotId} (hr : s.port.recSel.toNat = i.val) (hf : s.port.fieldSel.toNat = 0) :
    s.dataRead = { s with
      busData := s.readField (recordRef s.port.recSel) 0
      port := { s.port with fieldSel := 1, snapOcc := (s.slot i).occurrences, snapDue := s.nextDue i } } := by
  have hlen : recordLength s.port.recSel.toNat = 18 := if_pos (by omega)
  have hsel : s.port.fieldSel = 0 := BitVec.eq_of_toNat_eq hf
  unfold State.dataRead
  rw [State.snapshotOnRead_of_f0 hr hsel, State.dataByte_of_in_range (by omega), hf, State.nextFieldSel_eq, if_pos (by omega), hsel]
  rfl

/-! ### A burst of DATA reads (R158) -/

/-- What a read leaves that a burst goes by: the part stays out of reset and the record selected. -/
theorem State.dataRead_keeps (s : State) :
    s.dataRead.inReset = s.inReset ∧ s.dataRead.port.recSel = s.port.recSel ∧ s.dataRead.port.fieldSel = s.nextFieldSel := by
  unfold State.dataRead State.snapshotOnRead
  split
  · split <;> exact ⟨rfl, rfl, rfl⟩
  all_goals exact ⟨rfl, rfl, rfl⟩

/-- FIELD_SEL as a number after an access in range: one on, round the record (R158). -/
theorem State.nextFieldSel_toNat (h : s.port.fieldSel.toNat < recordLength s.port.recSel.toNat) :
    s.nextFieldSel.toNat = (s.port.fieldSel.toNat + 1) % recordLength s.port.recSel.toNat := by
  have hlen := recordLength_le s.port.recSel.toNat
  rw [State.nextFieldSel_of_in_range h]
  split
  next hlast => simp [hlast]
  next hlast =>
    rw [Nat.mod_eq_of_lt (by omega)]
    exact BitVec.toNat_add_of_lt (by simp; omega)

/-- After `k` reads of a burst: the same record, and FIELD_SEL `k` fields on, round the record (R158). -/
theorem State.dataRead_iterate (h : s.port.fieldSel.toNat < recordLength s.port.recSel.toNat) (k : Nat) :
    (State.dataRead^[k] s).inReset = s.inReset ∧ (State.dataRead^[k] s).port.recSel = s.port.recSel ∧
      (State.dataRead^[k] s).port.fieldSel.toNat = (s.port.fieldSel.toNat + k) % recordLength s.port.recSel.toNat := by
  induction k with
  | zero => exact ⟨rfl, rfl, (Nat.mod_eq_of_lt h).symm⟩
  | succ k ih =>
    rw [Function.iterate_succ_apply']
    generalize State.dataRead^[k] s = u at ih ⊢
    obtain ⟨hreset, hrec, hfield⟩ := ih
    obtain ⟨hreset', hrec', hfield'⟩ := u.dataRead_keeps
    have hin : u.port.fieldSel.toNat < recordLength u.port.recSel.toNat := by
      rw [hrec, hfield]
      exact Nat.mod_lt _ (by omega)
    refine ⟨hreset'.trans hreset, hrec'.trans hrec, ?_⟩
    rw [hfield', State.nextFieldSel_toNat hin, hrec, hfield, Nat.mod_add_mod, Nat.add_assoc]

end

/-! ### The fields of the records (R38, R94, R113, R172) -/

/-- A programmed field of an action record is read live (R161). -/
theorem State.actionField_of_programmed (s : State) (i : SlotId) {g : Nat} (hlo : 1 ≤ g) (hhi : g ≤ 13) :
    s.actionField i g = (s.slot i).prog.field g := by
  interval_cases g <;> rfl

/-- F0 of an output line record, bit by bit (R94). -/
theorem OutLine.field_zero_bits (l : OutLine) :
    (l.field 0).getLsbD 0 = l.level ∧ (l.field 0).getLsbD 1 = l.rest ∧ (l.field 0).getLsbD 2 = l.enable ∧
      (l.field 0).getLsbD 3 = l.openDrain ∧ (l.field 0).getLsbD 7 = false ∧
      (l.claims.length ≤ 4 → ((l.field 0).extractLsb' 4 3).toNat = l.claims.length) := by
  have key : ∀ (n : BitVec 3) (a b c d : Bool),
      let v : Byte := 0#1 ++ n ++ BitVec.ofBool d ++ BitVec.ofBool c ++ BitVec.ofBool b ++ BitVec.ofBool a
      v.getLsbD 0 = a ∧ v.getLsbD 1 = b ∧ v.getLsbD 2 = c ∧ v.getLsbD 3 = d ∧ v.getLsbD 7 = false ∧ v.extractLsb' 4 3 = n := by
    decide
  obtain ⟨hlevel, hrest, henable, hdrain, hzero, hcount⟩ := key (BitVec.ofNat 3 l.claims.length) l.level l.rest l.enable l.openDrain
  refine ⟨hlevel, hrest, henable, hdrain, hzero, fun hlen => ?_⟩
  exact (congrArg BitVec.toNat hcount).trans ((BitVec.toNat_ofNat ..).trans (Nat.mod_eq_of_lt (by omega)))

/-- The byte of a claim, bit by bit (R94). -/
theorem claimField_bits (c : Claim) :
    ((claimField (some c)).extractLsb' 0 5).toNat = c.slot.val ∧ (claimField (some c)).extractLsb' 5 2 = 0 ∧
      (claimField (some c)).getLsbD 7 = c.level := by
  have key : ∀ (a : Bool) (i : Fin 32), let v : Byte := BitVec.ofBool a ++ 0#2 ++ (BitVec.ofFin i : BitVec 5)
      (v.extractLsb' 0 5).toNat = i.val ∧ v.extractLsb' 5 2 = 0 ∧ v.getLsbD 7 = a := by decide
  exact key _ _

/-- CONFIG, bit by bit (R113). -/
theorem InLine.config_bits (l : InLine) :
    l.config.extractLsb' 0 2 = l.sense.code ∧ l.config.getLsbD 2 = l.reportEnable ∧ l.config.getLsbD 3 = l.wakeEnable ∧
      l.config.extractLsb' 4 4 = 0 := by
  have key : ∀ (a b : Bool) (c : BitVec 2), let v : Byte := 0#4 ++ BitVec.ofBool a ++ BitVec.ofBool b ++ c
      v.extractLsb' 0 2 = c ∧ v.getLsbD 2 = b ∧ v.getLsbD 3 = a ∧ v.extractLsb' 4 4 = 0 := by decide
  exact key _ _ _

/-- IN_STATUS, bit by bit (R113). -/
theorem InLine.status_bits (l : InLine) :
    l.status.getLsbD 0 = l.raw ∧ l.status.getLsbD 1 = l.qualified ∧ (l.status.getLsbD 2 = true ↔ l.deadline ≠ none) ∧
      l.status.extractLsb' 3 5 = 0 := by
  have key : ∀ a b c : Bool, let v : Byte := 0#5 ++ BitVec.ofBool a ++ BitVec.ofBool b ++ BitVec.ofBool c
      v.getLsbD 0 = c ∧ v.getLsbD 1 = b ∧ v.getLsbD 2 = a ∧ v.extractLsb' 3 5 = 0 := by decide
  obtain ⟨hraw, hqualified, hqualifying, hzero⟩ := key l.deadline.isSome l.qualified l.raw
  refine ⟨hraw, hqualified, ?_, hzero⟩
  rw [← Option.isSome_iff_ne_none, ← hqualifying]
  rfl

/-- F5 of an input line record is the first bound slot (R113). -/
theorem InLine.field_five_toNat {l : InLine} {i : SlotId} {others : List SlotId} (h : l.binding = i :: others) :
    (l.field 5).toNat = i.val := by
  have := i.isLt
  simp only [InLine.field, h, slotByte]
  exact (BitVec.toNat_ofNat ..).trans (Nat.mod_eq_of_lt (by omega))

theorem InLine.field_five_of_unbound {l : InLine} (h : l.binding = []) : l.field 5 = 0xFF := by
  simp only [InLine.field, h]

/-- F0 of the setup record is the time state (R38). -/
theorem TimeState.byte_bits (x : TimeState) : (0#6 ++ x.code).extractLsb' 0 2 = x.code ∧ (0#6 ++ x.code).extractLsb' 2 6 = 0 := by
  cases x <;> decide

/-- Settles O47: a read by its field, a burst by the iteration of reads, and the fields by the record that REC_SEL selects. -/
theorem dataReadReturnsField : Obligations.DataReadReturnsField := by
  intro s hon r f next F
  refine ⟨fun hout => ?_, fun hin hf0 => ?_, fun i hi hf => ?_, fun hin k => ?_, fun i hi => ?_, fun n hn => ?_, fun n hn => ?_,
    fun hsetup => ?_⟩
  · rw [exec_dataRead hon, State.dataRead_of_out_of_range hout]
  · rw [exec_dataRead hon, State.dataRead_of_not_f0 hf0, State.dataByte_of_in_range hin, State.nextFieldSel_of_in_range hin]
  · rw [exec_dataRead hon, State.dataRead_of_f0 hi hf]
  · obtain ⟨hreset, -, hfield⟩ := State.dataRead_iterate hin k
    refine ⟨hfield, ?_⟩
    rw [Function.iterate_succ_apply']
    exact exec_dataRead (hreset.trans hon)
  · have hF : ∀ g, F g = s.actionField i g := fun g => by simp only [F, recordRef_of_slot hi, State.readField]
    simp only [hF]
    exact ⟨rfl, fun g => s.actionField_of_programmed i, rfl, append_byteAt24 s.port.snapDue⟩
  · have hsel : recordRef s.port.recSel = .outLine n := by
      rw [recordRef_of_outLine (by omega) (by omega)]
      exact congrArg RecordRef.outLine (Fin.ext (by simp only; omega))
    have hF : ∀ g, F g = (s.out n).field g := fun g => by simp only [F, hsel, State.readField]
    simp only [hF]
    obtain ⟨hlevel, hrest, henable, hdrain, hzero, hcount⟩ := (s.out n).field_zero_bits
    refine ⟨hlevel, hrest, henable, hdrain, hzero, hcount, fun k _ => ⟨fun c hc => ?_, fun hnone => congrArg claimField hnone⟩⟩
    rw [show (s.out n).field (k + 1) = claimField (some c) from congrArg claimField hc]
    exact claimField_bits c
  · have hF : ∀ g, F g = (s.inp n).field g := fun g => by simp only [F, recordRef_of_inLine hn, State.readField]
    simp only [hF]
    exact ⟨(s.inp n).config_bits, rfl, (s.inp n).status_bits, rfl, fun hlen => (BitVec.toNat_ofNat ..).trans (Nat.mod_eq_of_lt (by omega)),
      fun i others => InLine.field_five_toNat, InLine.field_five_of_unbound⟩
  · have hF : ∀ g, F g = s.setupField g := fun g => by simp only [F, recordRef_of_setup hsetup, State.readField]
    simp only [hF]
    exact ⟨s.time.state.byte_bits, rfl, append_byteAt16 s.time.stepReg, rfl⟩

end Sys2Proof.Machine
end

section
/-! The register window and the interrupt: the bits of IRQ_FLAGS and IRQ# (R164 to R167), the writes without a row of their own (R154),
and what each register shows (section 9.2). -/

namespace Sys2Proof.Machine

/-! ### The flags and IRQ# (R131, R164 to R167) -/

/-- Each flag stands in its bit (R164, R173). -/
theorem State.irqFlags_bits (s : State) :
    s.irqFlags.getLsbD 0 = s.report.rpt ∧ s.irqFlags.getLsbD 1 = s.port.flags.ovr ∧ s.irqFlags.getLsbD 2 = s.port.flags.cmd ∧
      s.irqFlags.getLsbD 3 = s.port.flags.crf ∧ s.irqFlags.getLsbD 4 = s.port.flags.wrj ∧
      s.irqFlags.getLsbD 5 = s.port.flags.wak := by
  have key : ∀ a b c d e f : Bool,
      let v : BitVec 6 := BitVec.ofBool f ++ BitVec.ofBool e ++ BitVec.ofBool d ++ BitVec.ofBool c ++ BitVec.ofBool b ++
        BitVec.ofBool a
      v.getLsbD 0 = a ∧ v.getLsbD 1 = b ∧ v.getLsbD 2 = c ∧ v.getLsbD 3 = d ∧ v.getLsbD 4 = e ∧ v.getLsbD 5 = f := by decide
  exact key _ _ _ _ _ _

/-- Two words share a set bit exactly when their conjunction is not 0. -/
theorem word_and_ne_zero_iff {w : Nat} (x y : BitVec w) : x &&& y ≠ 0 ↔ ∃ k < w, x.getLsbD k = true ∧ y.getLsbD k = true := by
  rw [ne_eq, BitVec.eq_of_getLsbD_eq_iff]
  simp

theorem State.irqAsserted_iff (s : State) :
    s.irqAsserted = true ↔ s.inReset = false ∧ ∃ k < 6, s.irqFlags.getLsbD k = true ∧ s.port.enables.getLsbD k = true := by
  rw [← word_and_ne_zero_iff]
  simp [State.irqAsserted]

/-- The effective threshold is the stored one up to 16, and 16 above (R131). -/
theorem ReportUnit.effectiveThreshold_eq (u : ReportUnit) :
    u.effectiveThreshold = if u.threshold.toNat ≤ 16 then u.threshold.toNat else 16 := Nat.min_def ..

theorem ReportUnit.rpt_iff (u : ReportUnit) :
    u.rpt = true ↔ 1 ≤ u.effectiveThreshold ∧ u.effectiveThreshold ≤ u.queue.length := by
  simp [ReportUnit.rpt, Nat.one_le_iff_ne_zero]

/-- Settles O53: IRQ# by the shared bit of the flags and the enables, each flag by its bit. -/
theorem interruptFollowsFlags : Obligations.InterruptFollowsFlags := by
  intro s
  obtain ⟨hrpt, hsticky⟩ := s.irqFlags_bits
  refine ⟨s.irqAsserted_iff, hsticky, ?_⟩
  rw [hrpt, ReportUnit.rpt_iff, ReportUnit.effectiveThreshold_eq]

theorem exec_irqFlagsWrite {s : State} (h : s.inReset = false) (b : Byte) : exec (.irqFlagsWrite b) s = .next (s.irqFlagsWrite b) :=
  congrArg Host.Outcome.next (State.whenOn_of_on h _)

/-- Settles O52: a written 1 clears its sticky flag, bit by bit. -/
theorem interruptWrites : Obligations.InterruptWrites := by
  intro b s hon
  obtain ⟨hrpt, hovr, hcmd, hcrf, hwrj, hwak⟩ := s.irqFlags_bits
  obtain ⟨hrpt', hovr', hcmd', hcrf', hwrj', hwak'⟩ := (s.irqFlagsWrite b).irqFlags_bits
  refine ⟨⟨_, exec_irqFlagsWrite hon b, rfl, hrpt'.trans hrpt.symm, fun k hlo hhi => ?_⟩,
    congrArg Host.Outcome.next (State.whenOn_of_on hon _)⟩
  interval_cases k
  · rw [hovr', hovr]; rfl
  · rw [hcmd', hcmd]; rfl
  · rw [hcrf', hcrf]; rfl
  · rw [hwrj', hwrj]; rfl
  · rw [hwak', hwak]; rfl

/-! ### Writes without a row of their own (R154) -/

theorem exec_registerWrite {s : State} (h : s.inReset = false) (address : BitVec 5) (b : Byte) :
    exec (.registerWrite address b) s = .next (s.registerWrite address b) :=
  congrArg Host.Outcome.next (State.whenOn_of_on h _)

/-- A CONTROL write with bit 0 clear changes nothing (R168). -/
theorem State.controlWrite_of_clear (s : State) {b : Byte} (h : b.getLsbD 0 = false) : s.controlWrite b = s :=
  if_neg (Bool.eq_false_iff.1 h)

/-- A REGISTER_WRITE takes no address that has a row, and to CONTROL bit 0 is clear (R154, R168). -/
theorem isOtherWrite_iff (address : BitVec 5) (b : Byte) :
    isOtherWrite address b = true ↔ hasRowOfItsOwn address = false ∧ (address = 0x01 → b.getLsbD 0 = false) := by
  simp [isOtherWrite, imp_iff_not_or]

/-- The registers that no row and none of CONTROL, CMD_ARG and FIELD_SEL takes are read-only (R154, R163). -/
theorem State.registerWrite_of_readOnly (s : State) {address : BitVec 5} (hrow : hasRowOfItsOwn address = false)
    (hcontrol : address ≠ 0x01) (harg : address ≠ 0x05) (hfield : address ≠ 0x09) (b : Byte) :
    s.registerWrite address b = s.reject := by
  unfold State.registerWrite
  split
  case h_1 h => exact absurd (BitVec.eq_of_toNat_eq h) hcontrol
  case h_5 h => exact absurd (BitVec.eq_of_toNat_eq h) harg
  case h_7 h => exact absurd (BitVec.eq_of_toNat_eq h) hfield
  case h_16 => rfl
  all_goals
    next h => simp [hasRowOfItsOwn, h] at hrow

/-- Settles O54, by the address. -/
theorem registerWriteStoresOrRejects : Obligations.RegisterWriteStoresOrRejects := by
  intro address b s hon hother
  obtain ⟨hrow, hclear⟩ := (isOtherWrite_iff address b).1 hother
  rw [exec_registerWrite hon]
  refine ⟨?_, ?_, ?_, fun hcontrol harg hfield => ?_⟩
  · rintro rfl
    rfl
  · rintro rfl
    rfl
  · rintro rfl
    exact congrArg Host.Outcome.next (s.controlWrite_of_clear (hclear rfl))
  · rw [State.registerWrite_of_readOnly s hrow hcontrol harg hfield]
    rfl

/-! ### What the registers show (section 9.2) -/

/-- STATUS, bit by bit (R155). -/
theorem State.status_bits (s : State) :
    s.status.extractLsb' 0 2 = s.time.state.code ∧ s.status.getLsbD 2 = s.cmd.busy ∧
      (s.status.getLsbD 3 = true ↔ s.report.queue ≠ []) ∧ (s.status.getLsbD 4 = true ↔ s.report.retire ≠ []) ∧
      s.status.extractLsb' 5 3 = 0 := by
  have key : ∀ (a b c : Bool) (d : BitVec 2), let v : Byte := 0#3 ++ BitVec.ofBool a ++ BitVec.ofBool b ++ BitVec.ofBool c ++ d
      v.extractLsb' 0 2 = d ∧ v.getLsbD 2 = c ∧ v.getLsbD 3 = b ∧ v.getLsbD 4 = a ∧ v.extractLsb' 5 3 = 0 := by decide
  obtain ⟨hstate, hbusy, hqueue, hretire, hzero⟩ :=
    key (!s.report.retire.isEmpty) (!s.report.queue.isEmpty) s.cmd.busy s.time.state.code
  refine ⟨hstate, hbusy, ?_, ?_, hzero⟩
  · rw [show s.status.getLsbD 3 = _ from hqueue]
    simp
  · rw [show s.status.getLsbD 4 = _ from hretire]
    simp

/-- A byte joined from eight bits, bit 0 last (R173). -/
theorem byte_of_bits (bit : Fin 8 → Bool) (k : Fin 8) :
    (BitVec.ofBool (bit 7) ++ BitVec.ofBool (bit 6) ++ BitVec.ofBool (bit 5) ++ BitVec.ofBool (bit 4) ++ BitVec.ofBool (bit 3) ++
      BitVec.ofBool (bit 2) ++ BitVec.ofBool (bit 1) ++ BitVec.ofBool (bit 0) : Byte).getLsbD k.val = bit k := by
  have key : ∀ a b c d e f g h : Bool,
      let v : Byte := BitVec.ofBool h ++ BitVec.ofBool g ++ BitVec.ofBool f ++ BitVec.ofBool e ++ BitVec.ofBool d ++
        BitVec.ofBool c ++ BitVec.ofBool b ++ BitVec.ofBool a
      v.getLsbD 0 = a ∧ v.getLsbD 1 = b ∧ v.getLsbD 2 = c ∧ v.getLsbD 3 = d ∧ v.getLsbD 4 = e ∧ v.getLsbD 5 = f ∧
        v.getLsbD 6 = g ∧ v.getLsbD 7 = h := by decide
  obtain ⟨h0, h1, h2, h3, h4, h5, h6, h7⟩ := key (bit 0) (bit 1) (bit 2) (bit 3) (bit 4) (bit 5) (bit 6) (bit 7)
  fin_cases k
  exacts [h0, h1, h2, h3, h4, h5, h6, h7]

/-- Bit `k` of a line register is the item of its line (R173). -/
theorem State.readBank_bits (s : State) (bank : Bank) (item : OutLine → Bool) (k : Fin 8) :
    (s.readBank bank item).getLsbD k.val = item (s.out (lineOf bank k)) :=
  byte_of_bits (fun j => item (s.out (lineOf bank j))) k

/-- The eight head registers show the eight bytes of the head (R132, R173). -/
theorem State.registerByte_head (s : State) {k : Nat} (h : k < 8) :
    s.registerByte (BitVec.ofNat 5 (0x10 + k)) = s.report.headByte k := by
  interval_cases k <;> rfl

theorem ReportUnit.headByte_of_empty {u : ReportUnit} (h : u.queue = []) (k : Nat) : u.headByte k = 0 := by
  simp only [ReportUnit.headByte, h]

theorem ReportUnit.headByte_of_cons {u : ReportUnit} {r : Record} {rest : List Record} (h : u.queue = r :: rest) (k : Nat) :
    u.headByte k = r.byte k := by
  simp only [ReportUnit.headByte, h]

/-- The first byte of a record holds its kind and its gap bit (R116, R173). -/
theorem Record.byte_zero_bits (r : Record) :
    (r.byte 0).extractLsb' 0 4 = r.kind.code ∧ (r.byte 0).extractLsb' 4 3 = 0 ∧ (r.byte 0).getLsbD 7 = r.gap := by
  have key : ∀ (a : Bool) (c : BitVec 4), let v : Byte := BitVec.ofBool a ++ 0#3 ++ c
      v.extractLsb' 0 4 = c ∧ v.extractLsb' 4 3 = 0 ∧ v.getLsbD 7 = a := by decide
  exact key _ _

/-- Settles O55, register by register. -/
theorem readsShowState : Obligations.ReadsShowState := by
  refine ⟨⟨rfl, rfl, rfl, rfl⟩, ⟨rfl, rfl, rfl, rfl, rfl, rfl, rfl, rfl⟩, fun s => ⟨fun address => rfl, s.status_bits, ⟨rfl, rfl, rfl⟩,
    ⟨rfl, rfl⟩, ⟨rfl, rfl, rfl⟩, ⟨rfl, rfl⟩, State.dataByte_of_in_range, State.dataByte_of_out_of_range,
    ⟨rfl, append_byteAt16 s.port.nowSnap⟩, fun hlen => ?_, fun k => ?_, fun hempty k hk => ?_, fun r rest hqueue => ?_⟩⟩
  · exact (BitVec.toNat_ofNat ..).trans (Nat.mod_eq_of_lt (by omega))
  · exact ⟨⟨s.readBank_bits .low _ k, s.readBank_bits .high _ k⟩, ⟨s.readBank_bits .low _ k, s.readBank_bits .high _ k⟩,
      ⟨s.readBank_bits .low _ k, s.readBank_bits .high _ k⟩, ⟨s.readBank_bits .low _ k, s.readBank_bits .high _ k⟩⟩
  · rw [State.registerByte_head s hk, ReportUnit.headByte_of_empty hempty]
  · have hbyte : ∀ k, k < 8 → s.registerByte (BitVec.ofNat 5 (0x10 + k)) = r.byte k := fun k hk => by
      rw [State.registerByte_head s hk, ReportUnit.headByte_of_cons hqueue]
    rw [show s.registerByte 0x10 = _ from hbyte 0 (by decide), show s.registerByte 0x11 = _ from hbyte 1 (by decide),
      show s.registerByte 0x12 = _ from hbyte 2 (by decide), show s.registerByte 0x13 = _ from hbyte 3 (by decide),
      show s.registerByte 0x14 = _ from hbyte 4 (by decide), show s.registerByte 0x15 = _ from hbyte 5 (by decide),
      show s.registerByte 0x16 = _ from hbyte 6 (by decide), show s.registerByte 0x17 = _ from hbyte 7 (by decide)]
    exact ⟨r.byte_zero_bits, rfl, append_byteAt24 r.time, append_byteAt16 r.detail, rfl⟩

end Sys2Proof.Machine
end

section
/-! The resets: what a soft reset leaves of each block (R168), what the part shows and takes while it is held in hardware reset (R170),
and the register window after the release (R171). -/

namespace Sys2Proof.Machine

/-! ### The soft reset (R168) -/

section
variable (s : State)

@[simp] theorem State.softReset_slot (i : SlotId) : s.softReset.slot i = {} := by
  simp [State.softReset, State.slot]

@[simp] theorem State.softReset_out (n : OutId) : s.softReset.out n = { s.out n with claims := [] } := by
  simp [State.softReset, State.out, OutLine.softReset]

@[simp] theorem State.softReset_inp (n : InId) : s.softReset.inp n = { s.inp n with binding := [], delivery := none } := by
  simp [State.softReset, State.inp, InLine.softReset]

end

/-- RPT is 0 on an empty queue, whatever the threshold (R131). -/
theorem ReportUnit.rpt_of_empty {u : ReportUnit} (h : u.queue = []) : u.rpt = false := by
  rw [Bool.eq_false_iff]
  intro hrpt
  have := u.rpt_iff.1 hrpt
  rw [h, List.length_nil] at this
  omega

/-- Without sticky flags and records no flag is set (R164). -/
theorem State.irqFlags_eq_zero {s : State} (hflags : s.port.flags = {}) (hqueue : s.report.queue = []) : s.irqFlags = 0 := by
  unfold State.irqFlags
  rw [hflags, ReportUnit.rpt_of_empty hqueue]
  rfl

/-- Without flags IRQ# is released (R167). -/
theorem State.irqAsserted_of_no_flags {s : State} (h : s.irqFlags = 0) : s.irqAsserted = false := by
  simp [State.irqAsserted, h]

theorem exec_softReset {s : State} (h : s.inReset = false) {value : Byte} (hbit : value.getLsbD 0 = true) :
    exec (.softReset value) s = .next s.softReset :=
  congrArg Host.Outcome.next ((State.whenOn_of_on h _).trans (if_pos hbit))

/-- Settles O7, block by block. -/
theorem softResetEmptiesTheWork : Obligations.SoftResetEmptiesTheWork := by
  intro value s hon
  refine ⟨fun hbit => ?_, fun hclear => ?_⟩
  · have hflags : s.softReset.irqFlags = 0 := State.irqFlags_eq_zero rfl rfl
    refine ⟨s.softReset, exec_softReset hon hbit, s.softReset_slot, rfl, fun n => ⟨s.softReset_out n, ?_⟩, s.softReset_inp, rfl, rfl,
      rfl, rfl, hflags, State.irqAsserted_of_no_flags hflags, hon, rfl, rfl, rfl⟩
    rw [State.softReset_out]
    rfl
  · rw [exec_registerWrite hon]
    exact congrArg Host.Outcome.next (s.controlWrite_of_clear hclear)

/-! ### The hardware reset (R170, R171) -/

/-- A part held in reset takes no command but the two resets, and of a pin only its level (R114, R152, R170). -/
theorem exec_of_reset {u : State} (h : u.inReset = true) {c : Instr} (hreset : c ≠ .hardwareReset)
    (hrelease : ∀ levels, c ≠ .resetRelease levels) (hpin : ∀ n level, c ≠ .rawChange n level) : exec c u = .next u := by
  have hidle (event : State → State) : Host.Outcome.next (u.whenOn event) = (.next u : Host.Outcome State Fault Refusal) :=
    congrArg Host.Outcome.next (State.whenOn_of_reset h event)
  cases c with
  | hardwareReset => exact absurd rfl hreset
  | resetRelease levels => exact absurd rfl (hrelease levels)
  | rawChange n level => exact absurd rfl (hpin n level)
  | _ => exact hidle _

/-- Settles O4: the entry by its values, and what is taken in reset by the command. -/
theorem hardwareResetHoldsThePart : Obligations.HardwareResetHoldsThePart := by
  intro s
  refine ⟨s.enterReset, rfl, rfl, rfl, rfl, rfl, fun n => rfl, fun u hu => ⟨fun address => if_pos hu, fun c => exec_of_reset hu,
    fun n level => ?_⟩⟩
  exact congrArg Host.Outcome.next (State.whenOn_of_reset (s := u.setPin n level) hu _)

/-- Every register of the machine right after reset reads 00h (section 9.2). -/
theorem State.reset_registerByte : ∀ address : BitVec 5, State.reset.registerByte address = 0 := by
  decide

/-- No register shows the levels at the pins or the waiting commands, in which alone a release differs from the state after reset. -/
theorem State.releaseReset_registerByte (s : State) (levels : Byte) (address : BitVec 5) :
    (s.releaseReset levels).registerByte address = State.reset.registerByte address := rfl

/-- Settles O6: the defaults of the host port, and the registers of the state after reset. -/
theorem windowAfterHardwareReset : Obligations.WindowAfterHardwareReset := by
  intro levels s
  have hflags : (s.releaseReset levels).irqFlags = 0 := State.irqFlags_eq_zero rfl rfl
  exact ⟨s.releaseReset levels, rfl, rfl, rfl, rfl, rfl, rfl, hflags, rfl, State.irqAsserted_of_no_flags hflags,
    fun address => congrArg some ((s.releaseReset_registerByte levels address).trans (State.reset_registerByte address))⟩

end Sys2Proof.Machine
end

section
/-! The held advances (R175): the advance of source `held`, by whether the oldest one must wait (R106, R45; log entries 2, 7 and 30). -/

namespace Sys2Proof.Machine

variable {s : State} {size : Tick} {rest : List Tick}

/-- The oldest held advance is made when nothing holds it back (R175). -/
theorem State.makeHeld_of_ready (hheld : s.time.heldAdvances = size :: rest) (hready : ¬ AdvanceWaits s size) :
    s.makeHeld = heldMade s size rest :=
  (State.makeHeld_eq hheld).trans (if_neg hready)

/-- An oldest held advance that must wait is left, and the ones behind it with it (R175). -/
theorem State.makeHeld_of_waits (hheld : s.time.heldAdvances = size :: rest) (hwaits : AdvanceWaits s size) : s.makeHeld = s :=
  (State.makeHeld_eq hheld).trans (if_pos hwaits)

/-- Settles O25, by whether the oldest held advance must wait. -/
theorem heldAdvancesAreMadeInOrder : Obligations.HeldAdvancesAreMadeInOrder := by
  intro s size rest hon hheld
  have hstep : exec (.advance .held) s = .next s.makeHeld := exec_advance hon .held
  refine ⟨fun hready => ?_, fun hwaits => ?_⟩
  · rw [hstep, State.makeHeld_of_ready hheld hready]
  · rw [hstep, State.makeHeld_of_waits hheld hwaits]

end Sys2Proof.Machine
end

section
/-! One step of the machine (section 0.7), by the queue of waiting commands. -/

namespace Sys2Proof.Machine

variable {s : State}

/-- A step runs the command at the front of the queue on the state with the queue's rest (section 0.7). -/
theorem step_of_pending_cons {c : Instr} {rest : List Instr} (hpending : s.pending = c :: rest) :
    step s = exec c { s with pending := rest } := by
  simp only [step, hpending]

/-- On an empty queue the block idles (log entry 3). -/
theorem step_of_pending_nil (hpending : s.pending = []) : step s = .next s := by
  simp only [step, hpending]

/-- Settles O1, by whether a command waits. -/
theorem stepTakesFrontCommand : Obligations.StepTakesFrontCommand :=
  fun _ => ⟨fun _ _ hpending => step_of_pending_cons hpending, fun hpending => step_of_pending_nil hpending⟩

end Sys2Proof.Machine
end
